-- ==== Sys2Proof/Syntax.lean ====
section
/-! DEFINITION. The instructions and steps of the Xonum XL2: one constructor for each row of
spec/opcode_table.json (02 R33, R34; 95_what_each_step_holds.md). A register operand is its 6-bit operand
code (R29); an immediate keeps its field width. The P and W bits of a word stand in `InstrWord`, not here. -/

set_option Elab.async false

namespace Sys2Proof

/-- A register operand field: 0-31 a register, 32-39 a queue, 40-63 reserved (R29). -/
abbrev Opd := BitVec 6

/-- One step of the device. The first 270 constructors are the instructions; from `causeRead` on each
constructor is an event, its arguments choosing the pending thing that the event acts on. -/
inductive Instr where
  /-- Writes the 64-bit sum of two scalar registers (R93). -/
  | add (d a b : Opd)
  /-- Writes the 64-bit difference of two scalar registers (R93). -/
  | sub (d a b : Opd)
  /-- Writes the bitwise AND of two scalar registers (R93). -/
  | and (d a b : Opd)
  /-- Writes the bitwise OR of two scalar registers (R93). -/
  | or (d a b : Opd)
  /-- Writes the bitwise XOR of two scalar registers (R93). -/
  | xor (d a b : Opd)
  /-- Writes A AND NOT B (R93). -/
  | andn (d a b : Opd)
  /-- Shifts A left by the low six bits of B (R93). -/
  | shl (d a b : Opd)
  /-- Shifts A right logically by the low six bits of B (R93). -/
  | shr (d a b : Opd)
  /-- Shifts A right arithmetically by the low six bits of B (R93). -/
  | sra (d a b : Opd)
  /-- Rotates A left by the low six bits of B (R93). -/
  | rol (d a b : Opd)
  /-- Writes the signed minimum of A and B (R93). -/
  | min (d a b : Opd)
  /-- Writes the signed maximum of A and B (R93). -/
  | max (d a b : Opd)
  /-- Writes the unsigned minimum of A and B (R93). -/
  | minu (d a b : Opd)
  /-- Writes the unsigned maximum of A and B (R93). -/
  | maxu (d a b : Opd)
  /-- Writes the low 64 bits of A times B (R93). -/
  | mul (d a b : Opd)
  /-- Writes the high 64 bits of the signed product (R93). -/
  | mulh (d a b : Opd)
  /-- Writes the high 64 bits of the unsigned product (R93). -/
  | mulhu (d a b : Opd)
  /-- Signed division truncating toward zero, with fixed results for the borderline cases (R94). -/
  | div (d a b : Opd)
  /-- Unsigned division (R94). -/
  | divu (d a b : Opd)
  /-- Signed remainder with the sign of the dividend (R94). -/
  | rem (d a b : Opd)
  /-- Unsigned remainder (R94). -/
  | remu (d a b : Opd)
  /-- Counts the leading zero bits of A (R93). -/
  | clz (d a : Opd)
  /-- Counts the trailing zero bits of A (R93). -/
  | ctz (d a : Opd)
  /-- Counts the one bits of A (R93). -/
  | popc (d a : Opd)
  /-- Sign-extends byte 0 of A (R93). -/
  | sextB (d a : Opd)
  /-- Sign-extends halfword 0 of A (R93). -/
  | sextH (d a : Opd)
  /-- Sign-extends word 0 of A (R93). -/
  | sextW (d a : Opd)
  /-- Zero-extends byte 0 of A (R93). -/
  | zextB (d a : Opd)
  /-- Zero-extends halfword 0 of A (R93). -/
  | zextH (d a : Opd)
  /-- Zero-extends word 0 of A (R93). -/
  | zextW (d a : Opd)
  /-- Writes 1 if A equals B, else 0 (R93). -/
  | cmpEq (d a b : Opd)
  /-- Writes 1 if A differs from B, else 0 (R93). -/
  | cmpNe (d a b : Opd)
  /-- Writes 1 if A is signed less than B (R93). -/
  | cmpLt (d a b : Opd)
  /-- Writes 1 if A is signed at least B (R93). -/
  | cmpGe (d a b : Opd)
  /-- Writes 1 if A is unsigned less than B (R93). -/
  | cmpLtu (d a b : Opd)
  /-- Writes 1 if A is unsigned at least B (R93). -/
  | cmpGeu (d a b : Opd)
  /-- Selects A or B by whether C is nonzero (R95). -/
  | sel (d a b c : Opd)
  /-- Adds a sign-extended 12-bit immediate (R96). -/
  | addi (d a : Opd) (imm : BitVec 12)
  /-- ANDs a sign-extended 12-bit immediate (R96). -/
  | andi (d a : Opd) (imm : BitVec 12)
  /-- ORs a sign-extended 12-bit immediate (R96). -/
  | ori (d a : Opd) (imm : BitVec 12)
  /-- XORs a sign-extended 12-bit immediate (R96). -/
  | xori (d a : Opd) (imm : BitVec 12)
  /-- Writes a 16-bit constant placed at halfword hw, other bits zero (R97). -/
  | movi (d : Opd) (hw : BitVec 2) (imm : BitVec 16)
  /-- Replaces halfword hw of d with a 16-bit constant (R97). -/
  | movk (d : Opd) (hw : BitVec 2) (imm : BitVec 16)
  /-- FP32 addition under RM (R100). -/
  | fadd (d a b : Opd)
  /-- FP32 subtraction under RM (R100). -/
  | fsub (d a b : Opd)
  /-- FP32 multiplication under RM (R100). -/
  | fmul (d a b : Opd)
  /-- FP32 minimum with NaN and signed-zero rules (R100). -/
  | fmin (d a b : Opd)
  /-- FP32 maximum with NaN and signed-zero rules (R100). -/
  | fmax (d a b : Opd)
  /-- FP32 division under RM, long latency (R100). -/
  | fdiv (d a b : Opd)
  /-- FP32 square root under RM, long latency (R100). -/
  | fsqrt (d a : Opd)
  /-- Writes a one-hot class of the FP32 operand (R100). -/
  | fclass (d a : Opd)
  /-- Writes 1 if the FP32 operands are equal (R100). -/
  | fcmpEq (d a b : Opd)
  /-- Writes 1 if x is less than y (R100). -/
  | fcmpLt (d a b : Opd)
  /-- Writes 1 if x is at most y (R100). -/
  | fcmpLe (d a b : Opd)
  /-- Writes 1 if either operand is NaN (R100). -/
  | fcmpUn (d a b : Opd)
  /-- Writes A's magnitude with B's sign (R100). -/
  | fsgnJ (d a b : Opd)
  /-- Writes A's magnitude with the inverted sign of B (R100). -/
  | fsgnN (d a b : Opd)
  /-- Writes A's magnitude with the XOR of both signs (R100). -/
  | fsgnX (d a b : Opd)
  /-- Converts a signed 64-bit integer to FP32 under RM (R101). -/
  | fcvtFI (d a : Opd)
  /-- Converts an unsigned 64-bit integer to FP32 under RM (R101). -/
  | fcvtFIu (d a : Opd)
  /-- Truncates FP32 to a saturated signed 64-bit integer (R101). -/
  | fcvtIF (d a : Opd)
  /-- Truncates FP32 to a saturated unsigned 64-bit integer (R101). -/
  | fcvtIuF (d a : Opd)
  /-- FP32 fused multiply-add rounded once under RM (R100). -/
  | ffma (d a b c : Opd)
  /-- Adds FP32 lanes under the mask (R167). -/
  | vadd (d a b : Opd) (m : BitVec 3)
  /-- Subtracts FP32 lanes under the mask (R167). -/
  | vsub (d a b : Opd) (m : BitVec 3)
  /-- Multiplies FP32 lanes under the mask (R167). -/
  | vmul (d a b : Opd) (m : BitVec 3)
  /-- FP32 lane minimum as fmin (R167). -/
  | vmin (d a b : Opd) (m : BitVec 3)
  /-- FP32 lane maximum as fmax (R167). -/
  | vmax (d a b : Opd) (m : BitVec 3)
  /-- FP32 lane division, long latency (R167). -/
  | vdiv (d a b : Opd) (m : BitVec 3)
  /-- FP32 lane square root, long latency (R167). -/
  | vsqrt (d a : Opd) (m : BitVec 3)
  /-- Clears the sign bit of each active lane (R167). -/
  | vabs (d a : Opd) (m : BitVec 3)
  /-- Correctly rounded 2^x per lane (R168). -/
  | vexp2 (d a : Opd) (m : BitVec 3)
  /-- Correctly rounded log2 x per lane (R168). -/
  | vlog2 (d a : Opd) (m : BitVec 3)
  /-- Correctly rounded reciprocal per lane (R168). -/
  | vrcp (d a : Opd) (m : BitVec 3)
  /-- Correctly rounded reciprocal square root per lane (R168). -/
  | vrsq (d a : Opd) (m : BitVec 3)
  /-- Inverts the sign bit of each active lane (R167). -/
  | vneg (d a : Opd) (m : BitVec 3)
  /-- Fused multiply-add on all 16 FP32 lanes (R169). -/
  | vfma (d a b c : Opd)
  /-- Computes z minus x times y on all lanes, rounded once (R169). -/
  | vfnma (d a b c : Opd)
  /-- 32-bit integer lane addition (R170). -/
  | vaddI (d a b : Opd) (m : BitVec 3)
  /-- 32-bit integer lane subtraction (R170). -/
  | vsubI (d a b : Opd) (m : BitVec 3)
  /-- 32-bit integer lane multiplication, low bits (R170). -/
  | vmulI (d a b : Opd) (m : BitVec 3)
  /-- Lane bitwise AND (R170). -/
  | vand (d a b : Opd) (m : BitVec 3)
  /-- Lane bitwise OR (R170). -/
  | vor (d a b : Opd) (m : BitVec 3)
  /-- Lane bitwise XOR (R170). -/
  | vxor (d a b : Opd) (m : BitVec 3)
  /-- Lane shift left (R170). -/
  | vshl (d a b : Opd) (m : BitVec 3)
  /-- Lane logical shift right (R170). -/
  | vshr (d a b : Opd) (m : BitVec 3)
  /-- Lane arithmetic shift right (R170). -/
  | vsra (d a b : Opd) (m : BitVec 3)
  /-- Signed 32-bit lane minimum (R170). -/
  | vminI (d a b : Opd) (m : BitVec 3)
  /-- Signed 32-bit lane maximum (R170). -/
  | vmaxI (d a b : Opd) (m : BitVec 3)
  /-- Unsigned lane minimum (R170). -/
  | vminu (d a b : Opd) (m : BitVec 3)
  /-- Unsigned lane maximum (R170). -/
  | vmaxu (d a b : Opd) (m : BitVec 3)
  /-- Lane X AND NOT Y (R170). -/
  | vandn (d a b : Opd) (m : BitVec 3)
  /-- Sets mask bits where FP32 lanes are equal (R172). -/
  | vcmpEq (d a b : Opd) (m : BitVec 3)
  /-- Sets mask bits where x is less than y (R172). -/
  | vcmpLt (d a b : Opd) (m : BitVec 3)
  /-- Sets mask bits where x is at most y (R172). -/
  | vcmpLe (d a b : Opd) (m : BitVec 3)
  /-- Sets mask bits where either lane is NaN (R172). -/
  | vcmpUn (d a b : Opd) (m : BitVec 3)
  /-- Sets mask bits where integer lanes are equal (R172). -/
  | vcmpEqI (d a b : Opd) (m : BitVec 3)
  /-- Sets mask bits where X is signed less than Y (R172). -/
  | vcmpLtI (d a b : Opd) (m : BitVec 3)
  /-- Sets mask bits where X is unsigned less than Y (R172). -/
  | vcmpLtu (d a b : Opd) (m : BitVec 3)
  /-- Selects each lane from a or b by a mask (R173). -/
  | vsel (d a b c : Opd)
  /-- Decodes a packed operand of format F into FP32 lanes (R178). -/
  | vcvtUp (d a : Opd) (f : BitVec 6) (m : BitVec 3)
  /-- Narrows FP32 lanes to format F under RM (R179). -/
  | vcvtDn (d a : Opd) (f : BitVec 6) (m : BitVec 3)
  /-- Narrows under RM with saturation (R179). -/
  | vcvtDnSat (d a : Opd) (f : BitVec 6) (m : BitVec 3)
  /-- Narrows under stochastic rounding (R179). -/
  | vcvtDnSr (d a : Opd) (f : BitVec 6) (m : BitVec 3)
  /-- Narrows under stochastic rounding with saturation (R179). -/
  | vcvtDnSrSat (d a : Opd) (f : BitVec 6) (m : BitVec 3)
  /-- Narrows toward zero (R179). -/
  | vcvtDnRtz (d a : Opd) (f : BitVec 6) (m : BitVec 3)
  /-- Permutes lanes of a by indices in b (R175). -/
  | vperm (d a b : Opd) (m : BitVec 3)
  /-- Broadcasts a scalar's low word to active lanes (R175). -/
  | vbcast (d a : Opd) (m : BitVec 3)
  /-- Inserts a scalar's low word into lane n (R175). -/
  | vins (d a : Opd) (n : BitVec 6) (m : BitVec 3)
  /-- Extracts lane n into a scalar register (R175). -/
  | vext (d a : Opd) (n : BitVec 6)
  /-- Sums active lanes by the fixed tree into a scalar (R176). -/
  | vredAdd (d a : Opd) (m : BitVec 3)
  /-- Reduces active lanes by fmax into a scalar (R176). -/
  | vredMax (d a : Opd) (m : BitVec 3)
  /-- Reduces active lanes by fmin into a scalar (R176). -/
  | vredMin (d a : Opd) (m : BitVec 3)
  /-- ANDs two mask registers (R174). -/
  | mand (d a b : Opd)
  /-- ORs two mask registers (R174). -/
  | mor (d a b : Opd)
  /-- Inverts a mask register (R174). -/
  | mnot (d a : Opd)
  /-- Counts a mask's set bits into a scalar (R174). -/
  | mpopc (d a : Opd)
  /-- Packed BF16 addition (R171). -/
  | vaddBf (d a b : Opd) (m : BitVec 3)
  /-- Packed BF16 multiplication (R171). -/
  | vmulBf (d a b : Opd) (m : BitVec 3)
  /-- Packed FP16 addition (R171). -/
  | vaddHf (d a b : Opd) (m : BitVec 3)
  /-- Packed FP16 multiplication (R171). -/
  | vmulHf (d a b : Opd) (m : BitVec 3)
  /-- Packed saturating 16-bit addition (R171). -/
  | vaddI16 (d a b : Opd) (m : BitVec 3)
  /-- Packed saturating 16-bit subtraction (R171). -/
  | vsubI16 (d a b : Opd) (m : BitVec 3)
  /-- Packed saturating 8-bit addition (R171). -/
  | vaddI8 (d a b : Opd) (m : BitVec 3)
  /-- Packed saturating 8-bit subtraction (R171). -/
  | vsubI8 (d a b : Opd) (m : BitVec 3)
  /-- Jumps by a signed 24-bit word offset (R103). -/
  | j (off : BitVec 24)
  /-- Jumps by a 24-bit word offset and writes the link to s1 (R103). -/
  | jl (off : BitVec 24)
  /-- Two-word pair jumping by a 48-bit word offset and writing the link (R27). -/
  | jlL (off : BitVec 48)
  /-- Branches if A equals B (R102). -/
  | bEq (a b : Opd) (off : BitVec 9)
  /-- Branches if A differs from B (R102). -/
  | bNe (a b : Opd) (off : BitVec 9)
  /-- Branches if A is signed less than B (R102). -/
  | bLt (a b : Opd) (off : BitVec 9)
  /-- Branches if A is signed at least B (R102). -/
  | bGe (a b : Opd) (off : BitVec 9)
  /-- Branches if A is unsigned less than B (R102). -/
  | bLtu (a b : Opd) (off : BitVec 9)
  /-- Branches if A is unsigned at least B (R102). -/
  | bGeu (a b : Opd) (off : BitVec 9)
  /-- Branches if bit n of A is 1 (R102). -/
  | bBset (a : Opd) (bit : BitVec 6) (off : BitVec 9)
  /-- Branches if bit n of A is 0 (R102). -/
  | bBclr (a : Opd) (bit : BitVec 6) (off : BitVec 9)
  /-- Jumps to P plus a register (R104). -/
  | jr (a : Opd)
  /-- Jumps to the absolute address in a register (R104). -/
  | jrA (a : Opd)
  /-- Jumps to P plus a register and writes the link (R104). -/
  | jlr (a : Opd)
  /-- Jumps to an absolute register address and writes the link (R104). -/
  | jlrA (a : Opd)
  /-- Loads a sign-extended byte (R107). -/
  | ldB (t base : Opd) (off : BitVec 9)
  /-- Loads a sign-extended halfword (R107). -/
  | ldH (t base : Opd) (off : BitVec 9)
  /-- Loads a sign-extended word (R107). -/
  | ldW (t base : Opd) (off : BitVec 9)
  /-- Loads a doubleword (R107). -/
  | ldD (t base : Opd) (off : BitVec 9)
  /-- Loads a zero-extended byte (R107). -/
  | ldBu (t base : Opd) (off : BitVec 9)
  /-- Loads a zero-extended halfword (R107). -/
  | ldHu (t base : Opd) (off : BitVec 9)
  /-- Loads a zero-extended word (R107). -/
  | ldWu (t base : Opd) (off : BitVec 9)
  /-- Stores a byte (R107). -/
  | stB (t base : Opd) (off : BitVec 9)
  /-- Stores a halfword (R107). -/
  | stH (t base : Opd) (off : BitVec 9)
  /-- Stores a word (R107). -/
  | stW (t base : Opd) (off : BitVec 9)
  /-- Stores a doubleword (R107). -/
  | stD (t base : Opd) (off : BitVec 9)
  /-- Waits at home for full, loads the word and empties it; acquire (R109). -/
  | ldFe (t base : Opd) (off : BitVec 9)
  /-- Waits at home for full and loads the word; acquire (R109). -/
  | ldFf (t base : Opd) (off : BitVec 9)
  /-- Waits at home for empty, stores and fills the word; release (R109). -/
  | stEf (t base : Opd) (off : BitVec 9)
  /-- Stores and sets the full bit; release (R109). -/
  | stF (t base : Opd) (off : BitVec 9)
  /-- Reads one element through a format window decoded to FP32 (R108). -/
  | ldw (t base : Opd) (off : BitVec 9)
  /-- Hints a data-cache fill of a 64-byte block (R110). -/
  | pf (lvl : BitVec 6) (base : Opd) (off : BitVec 9)
  /-- Hints an instruction-cache fill of a 64-byte block (R110). -/
  | ipf (lvl : BitVec 6) (base : Opd) (off : BitVec 9)
  /-- Loads an aligned 64-byte line into a vector register (R180). -/
  | vld (t base : Opd) (off : BitVec 9)
  /-- Stores a vector register to an aligned 64-byte line (R180). -/
  | vst (t base : Opd) (off : BitVec 9)
  /-- Loads 16 elements through a plane or format window (R181). -/
  | vldw (t base : Opd) (off : BitVec 9)
  /-- Stores 16 lanes encoded through a plane or format window (R181). -/
  | vstw (t base : Opd) (off : BitVec 9)
  /-- Gathers 4-byte words at indexed scratchpad addresses (R182). -/
  | vgat (a b c : Opd) (m : BitVec 3)
  /-- Scatters lanes to indexed scratchpad words (R182). -/
  | vsct (a b c : Opd) (m : BitVec 3)
  /-- Parks until earlier work has reached core scope (R111). -/
  | fenceCore
  /-- Parks until earlier work has reached cluster scope (R111). -/
  | fenceCl
  /-- Parks until earlier work reaches die scope, writing back and dropping cache fills (R112). -/
  | fenceDie
  /-- Parks until earlier work is performed at every home, with cache write-back and drop (R112). -/
  | fenceSys
  /-- Fences at system scope, then broadcasts an invalidation of a range in an ASID (R264). -/
  | tlbInv (a b c : Opd)
  /-- Parks until every holder acknowledged the thread's invalidations (R268). -/
  | tlbSync
  /-- Writes back dirty sectors of a range in every data cache (R288). -/
  | dcWb (a b : Opd)
  /-- Empties sectors of a range, discarding dirty bytes (R288). -/
  | dcInv (a b : Opd)
  /-- Writes back and then empties sectors of a range (R288). -/
  | dcWbinv (a b : Opd)
  /-- Drops blocks of a range from every instruction cache (R288). -/
  | icInv (a b : Opd)
  /-- Allocates a tensor from a descriptor and returns its handle or 0 (R80). -/
  | tNew (a b : Opd)
  /-- Frees a handle after its lower positions complete (R81). -/
  | tFree (a : Opd)
  /-- Reads a view's elements into a scratchpad run (R82). -/
  | tLd (a b : Opd)
  /-- Writes a scratchpad run through a view, counting drops (R83). -/
  | tSt (a b : Opd)
  /-- Gathers elements by an index list into scratchpad (R84). -/
  | tGat (a b c : Opd)
  /-- Evaluates a phrase over a range of elements (R85). -/
  | tPhr (a b c : Opd)
  /-- Returns one fact about a handle at its position (R91). -/
  | tQ (a b : Opd) (which : BitVec 6)
  /-- Adds operation bits to a handle, converting its representation or refusing (R92). -/
  | tWiden (a b c : Opd)
  /-- Parks until the cluster array is leased to the thread (R200). -/
  | mxLease
  /-- Ends the lease and returns the latest accepted command number (R214). -/
  | mxFree (a : Opd)
  /-- Loads a tile configuration, serialising and possibly clearing tiles (R204). -/
  | mxCfg (a : Opd)
  /-- Accumulates a dense product into a tile (R214). -/
  | mxMma (a b : Opd) (tile : BitVec 6)
  /-- Accumulates a product with a sparse B operand into a tile (R214). -/
  | mxSp (a b : Opd) (tile : BitVec 6)
  /-- Clears a tile and its flag word (R214). -/
  | mxZero (tile : BitVec 6)
  /-- Loads a tile through a window (R214). -/
  | mxLd (a : Opd) (tile : BitVec 6)
  /-- Stores a tile through a window and ORs its flags (R214). -/
  | mxSt (a : Opd) (tile : BitVec 6)
  /-- Bank unit adds a source run or scalar into a run (R217). -/
  | bkAdd (a b c : Opd)
  /-- Bank unit multiplies a run by a source run or scalar (R217). -/
  | bkMul (a b c : Opd)
  /-- Bank unit fused multiply-add with constant Y (R217). -/
  | bkFma (a b c : Opd)
  /-- Bank unit elementwise maximum (R217). -/
  | bkMax (a b c : Opd)
  /-- Bank unit elementwise minimum (R217). -/
  | bkMin (a b c : Opd)
  /-- Bank unit fills a run with source bits (R217). -/
  | bkFill (a b c : Opd)
  /-- Bank unit narrows a run to a packed format (R218). -/
  | bkCvt (a b c : Opd)
  /-- Bank unit reduces a run into one word (R219). -/
  | bkSum (a b c : Opd)
  /-- Bank unit folds scores into an online-softmax pair (R220). -/
  | bkOsm (a b c : Opd)
  /-- Opens an update region and returns a stream identifier or 0 (R234). -/
  | upOpen (a b : Opd)
  /-- Sends one address-value pair to a region (R235). -/
  | upEmit (a b c : Opd)
  /-- Sends n pairs from vector lanes to a region (R235). -/
  | upEmitv (a b c : Opd)
  /-- Sends a flush to every channel of a region and returns its timeline number (R241). -/
  | upFlush (a b : Opd)
  /-- Parks until every channel applies and closes the region (R242). -/
  | upClose (a : Opd)
  /-- Returns a count of the region summed over its channels (R243). -/
  | upSt (a b : Opd) (which : BitVec 6)
  /-- Hands a linear copy to a copy context on a tag (R270). -/
  | cp (a : Opd) (ctx tag : BitVec 6)
  /-- Hands a strided two-dimensional copy to a copy context (R283). -/
  | cp2d (a : Opd) (ctx tag : BitVec 6)
  /-- Hands a view-to-view tensor copy to a copy context (R284). -/
  | cpT (a : Opd) (ctx tag : BitVec 6)
  /-- Parks until every masked tag is set; acquire (R271). -/
  | tagWaitAll (a : Opd)
  /-- Parks until some masked tag is set and returns the lowest (R287). -/
  | tagWaitAny (a b : Opd)
  /-- Returns the lowest set masked tag or 64 without parking (R287). -/
  | tagFfr (a b : Opd)
  /-- Reads an engine timeline counter; acquire (R326). -/
  | tlRd (a b : Opd) (kind : BitVec 6)
  /-- Parks until an engine timeline reaches n; acquire (R326). -/
  | tlWait (a b : Opd) (kind : BitVec 6)
  /-- Atomic add at the home, returning the old value (R253). -/
  | amoAdd (w : Bool) (a b c : Opd)
  /-- Atomic AND at the home (R253). -/
  | amoAnd (w : Bool) (a b c : Opd)
  /-- Atomic OR at the home (R253). -/
  | amoOr (w : Bool) (a b c : Opd)
  /-- Atomic XOR at the home (R253). -/
  | amoXor (w : Bool) (a b c : Opd)
  /-- Atomic signed minimum at the home (R253). -/
  | amoMin (w : Bool) (a b c : Opd)
  /-- Atomic signed maximum at the home (R253). -/
  | amoMax (w : Bool) (a b c : Opd)
  /-- Atomic unsigned minimum at the home (R253). -/
  | amoMinu (w : Bool) (a b c : Opd)
  /-- Atomic unsigned maximum at the home (R253). -/
  | amoMaxu (w : Bool) (a b c : Opd)
  /-- Atomic swap at the home (R253). -/
  | amoSwap (w : Bool) (a b c : Opd)
  /-- Atomic compare-and-swap at the home (R253). -/
  | amoCas (w : Bool) (a b c : Opd)
  /-- Initialises a barrier object with an arrival count (R256). -/
  | barInit (a b : Opd)
  /-- Releases and decrements a barrier's pending arrivals, possibly turning the phase (R256). -/
  | barArr (a : Opd)
  /-- Releases and adds expected bytes to a barrier, possibly turning the phase (R256). -/
  | barExp (a b : Opd)
  /-- Parks until the barrier phase differs; acquire (R256). -/
  | barWait (a b : Opd)
  /-- Arms a monitor on a 64-byte granule, registering at its home (R258). -/
  | monArm (a : Opd)
  /-- Parks until a monitor hit, timeout or mailbox message (R258). -/
  | monWait (a b : Opd)
  /-- Disarms masked monitors (R258). -/
  | monClr (a : Opd)
  /-- Sends a 16-byte message to a core's mailbox as a release (R260). -/
  | msgSend (a b c : Opd)
  /-- Parks until the mailbox is non-empty (R144). -/
  | msgWait
  /-- Pops the oldest mailbox message; acquire (R260). -/
  | msgPop (a b : Opd)
  /-- Parks until an item of the stage is dequeued and makes it current (R316). -/
  | take (a b : Opd)
  /-- Ends the current item as a release (R316). -/
  | done
  /-- Sends a tuple along a declared edge as a release (R306). -/
  | emit (edge : BitVec 6) (b c : Opd)
  /-- Writes a continuation record, seals it to the engine and frees the slot (R304). -/
  | susp (a b : Opd)
  /-- Sets a future to EMPTY (R303). -/
  | futInit (a : Opd)
  /-- Registers a continuation record on a future or reports it settled (R303). -/
  | futReg (a b c : Opd)
  /-- Resolves a future and sends resume notices; release (R303). -/
  | futRes (a b : Opd)
  /-- Poisons a future and sends resume notices; release (R323). -/
  | futResP (a b : Opd)
  /-- Returns a future's value word (R323). -/
  | futRd (a b : Opd)
  /-- Returns a future's state word (R323). -/
  | futRdS (a b : Opd)
  /-- Adds to a notify register of the graph and returns the new value (R315). -/
  | gNotify (a b : Opd) (n : BitVec 6)
  /-- Launches a graph on the die's syntax engine, or aborts a live one (R313). -/
  | gLaunch (a b c : Opd)
  /-- Requests a channel's phrase unit lease with an expiry count (R329). -/
  | phLease (a b c : Opd)
  /-- Submits a phrase run on a held lease and returns its number (R331). -/
  | phRun (a b c : Opd)
  /-- Parks until the lease's runs complete, then ends the lease (R332). -/
  | phFree (a : Opd)
  /-- Resets a lexicon slot or arms one of its pattern entries (R345). -/
  | tkArm (a b : Opd) (e : BitVec 6)
  /-- Loads a budget of a lexicon slot (R346). -/
  | tkBud (a b : Opd) (k : BitVec 6)
  /-- Empties the drafts and commits one token, evaluating its position (R349). -/
  | tkCmt (a b c : Opd)
  /-- Appends a token to the slot's draft window (R349). -/
  | tkDraft (a b : Opd)
  /-- Commits drafts from the oldest until an action fires (R349). -/
  | tkConf (a b c : Opd)
  /-- Returns the slot's state word (R351). -/
  | tkNext (a b : Opd)
  /-- Returns one selected item of a lexicon slot (R363). -/
  | tkSt (a b : Opd) (which : BitVec 6)
  /-- Completes and traps with cause 0x05 and its number in cr.tinfo (R123). -/
  | trap (n : BitVec 12)
  /-- Returns from a trap to cr.tpc, restoring handler mode (R124). -/
  | eret
  /-- Reads a control register into a scalar register (R123). -/
  | crRd (a : Opd) (n : BitVec 12)
  /-- Writes a control register field by field; covers registers without behaviour of their own (R123). -/
  | crWr (a : Opd) (n : BitVec 12)
  /-- ORs a mask into the RW and RWP fields of a control register (R123). -/
  | crSet (a : Opd) (n : BitVec 12)
  /-- Clears masked bits of the RW and RWP fields of a control register (R123). -/
  | crClr (a : Opd) (n : BitVec 12)
  /-- Changes a quiescent core's context mode (R333). -/
  | repart (a b : Opd)
  /-- Reclaims masked HALTED slots to EMPTY (R333). -/
  | repartRcl (a b : Opd)
  /-- Stops masked slots precisely by control (R333). -/
  | repartStop (a b : Opd)
  /-- Resumes masked slots stopped by control (R333). -/
  | repartRun (a b : Opd)
  /-- Removes the thread from the issue rotation for good (R125). -/
  | halt
  /-- Debug stop when enabled, otherwise breakpoint trap 0x06 (R123). -/
  | brk
  /-- Reads a performance counter (R342). -/
  | ctrRd (a : Opd) (n : BitVec 6)
  /-- Selects the event a configurable counter counts (R342). -/
  | ctrCfg (a : Opd) (n : BitVec 6)
  /-- Clears masked counters (R342). -/
  | ctrClr (a : Opd)
  /-- A read of cr.cause clears cr.tstat.UNREAD in the same step (R116). -/
  | causeRead (d : Opd)
  /-- A long-latency result returns and is written to its register or queue entry (R24). -/
  | loadReturn (k : Nat)
  /-- An instruction block arrives from the caches or home and ends a fetch stall (R197). -/
  | fetchReturn (k : Nat)
  /-- An access or message arrives at its home and is performed in arrival order (R246). -/
  | homeAccess (k : Nat)
  /-- A full/empty access arrives at its home bank and is performed or joins the wait list (R142). -/
  | fullEmptyArrival (k : Nat)
  /-- A sector write-back carrying masked bytes arrives and is performed at the home (R194). -/
  | writeBack (k : Nat)
  /-- The data cache evicts a sector, writing it back and emptying it (R194). -/
  | eviction (cluster sector : Nat)
  /-- A monitor wait's timeout in core cycles expires (R143). -/
  | monitorTimeout (core slot : Nat)
  /-- A 16-byte message reaches a core's mailbox or its input (R144). -/
  | messageArrival (k : Nat)
  /-- A handle command reaches the home controller and is positioned or refused (R12). -/
  | handleCommandArrival (k : Nat)
  /-- A positioned handle command completes its effect (R74). -/
  | handleCommandCompletion (k : Nat)
  /-- The conversion of an accepted widening completes and releases later commands (R13). -/
  | wideningConversion (k : Nat)
  /-- The array grants its lease to a requester (R200). -/
  | leaseGrant (cluster : Nat)
  /-- The idle count reaches cr.mxwd.LIMIT and the array revokes the lease (R202). -/
  | leaseWatchdogExpiry (cluster : Nat)
  /-- An array command completes and the timeline advances (R212). -/
  | arrayCommandCompletion (k : Nat)
  /-- A bank command's last line is written and its flags reach cr.fflags (R222). -/
  | bankCommandPerformed (k : Nat)
  /-- An update pair arrives at its channel and is binned, spilled or dropped (R237). -/
  | pairArrival (k : Nat)
  /-- A region application ends, freeing entries and releasing held pairs and accesses (R239). -/
  | applicationEnd (sid chan : Nat)
  /-- A flush arrives at a channel and triggers an application (R241). -/
  | flushArrival (k : Nat)
  /-- A close arrives at a channel, applies the region and releases its entries (R242). -/
  | closeArrival (k : Nat)
  /-- A copy completes: writes, action, status and tag in that order (R285). -/
  | copyCompletion (k : Nat)
  /-- A translation invalidation reaches a holder, which drops the named translations (R265). -/
  | invalidationArrival (k : Nat)
  /-- A holder acknowledges once its accesses with the named translations have drained (R266). -/
  | invalidationAcknowledgement (k : Nat)
  /-- A cr.migd write with OP MIGRATE freezes, copies and forwards a frame (R281). -/
  | migrate (k : Nat)
  /-- A cr.migd write with OP RELEASE removes a frame's forwarding entry (R281). -/
  | release (k : Nat)
  /-- The channel controllers write the migration STATUS and set its tag (R281). -/
  | migrationCompletion (k : Nat)
  /-- The syntax engine checks the graph, starts its threads and writes the launch result (R313). -/
  | launchCompletion (k : Nat)
  /-- A graph's live count drains to zero and the engine evaluates the next arm (R314). -/
  | waveDrain (die graph : Nat)
  /-- A work item arrives at a core and joins its deque or waits at the input (R318). -/
  | itemArrival (k : Nat)
  /-- A steal request reaches a victim, which yields its far-end item or fails (R319). -/
  | stealRequest (k : Nat)
  /-- The 256-cycle wait after a failed steal round ends (R319). -/
  | stealBackoffExpiry (core : Nat)
  /-- An emit parked 4,096 core cycles sends a probe token (R320). -/
  | probeTimeout (core : Nat)
  /-- A probe token is forwarded, dropped or returns to its origin (R320). -/
  | probeToken (k : Nat)
  /-- A target admits the origin's oldest held item into a reserve entry (R320). -/
  | emergencyEntryRequest (k : Nat)
  /-- The seal of a continuation record reaches the syntax engine (R305). -/
  | sealArrival (k : Nat)
  /-- A resume notice reaches the engine, which queues a resume item once sealed (R305). -/
  | resumeNotice (k : Nat)
  /-- A phrase unit with no lease grants a pending request (R329). -/
  | phraseLeaseGrant (chan : Nat)
  /-- A phrase run's writes are performed and its flags reach cr.fflags (R331). -/
  | phraseRunCompletion (k : Nat)
  /-- A write of cr.lexrel returns a lexicon slot to FREE (R357). -/
  | lexrelWrite (a : Opd)
  /-- A cr.psave write with OP SAVE stops, drains and saves cores (R335). -/
  | save (k : Nat)
  /-- A cr.psave write with OP RESTORE loads saved cores onto destinations (R336). -/
  | restore (k : Nat)
  /-- A cr.psave write with OP MOVE saves a core, restores it elsewhere and forwards (R337). -/
  | move (k : Nat)
  /-- A cr.psave write with OP UNFWD removes a moved core's forwarding entry (R337). -/
  | unfwd (k : Nat)
  /-- A pre-emption operation writes its STATUS and sets its tag (R335). -/
  | preemptionCompletion (k : Nat)
  /-- Writing cr.dbgc.HALT 1 stops every running slot of the partition (R339). -/
  | debugHalt (k : Nat)
  /-- Writing cr.dbgc.HALT 0 resumes the slots stopped by halt (R339). -/
  | debugResume (k : Nat)
  /-- Holds every core except die 0's corner core, which runs the boot ROM (R294). -/
  | powerOnReset
  /-- A Litar BOOT message delivers firmware that the ROM verifies and starts (R294). -/
  | boot (k : Nat)
  /-- Port 0 has no link within 2^32 core cycles, so boot uses port 1 (R294). -/
  | bootPortTimeout
  /-- A discovery packet reaches a core, giving its coordinate and being forwarded (R294). -/
  | discoveryPacket (k : Nat)
  /-- A stage's data image arrives at a core down the multicast tree (R294). -/
  | imageDelivery (k : Nat)
  /-- A core's acknowledgement of image delivery arrives up the tree (R294). -/
  | imageAcknowledgement (k : Nat)
  /-- A Litar LAUNCH message launches a graph (R296). -/
  | launch (k : Nat)
  /-- A Litar MAP message sets page tables and remote devices (R296). -/
  | map (k : Nat)
  /-- A Litar COPY message moves data between host and device (R296). -/
  | copy (k : Nat)
  /-- A Litar QUERY message reads capability records (R296). -/
  | query (k : Nat)
  /-- A QUOTE request is answered with a signature over nonce, digest and capabilities (R299). -/
  | quote (k : Nat)
  /-- A POWER request moves a channel toward a power state (R300). -/
  | power (k : Nat)
  /-- A Litar message with an undefined type or reserved byte gets status 2 (R296). -/
  | undefinedLitarMessage (k : Nat)
  /-- A frame with another EtherType is dropped at the MAC (R296). -/
  | nonLitarFrame (k : Nat)
  /-- A priority flow control frame on priority 3 is honoured (R296). -/
  | priorityFlowControl (k : Nat)
  /-- A flit arrives on a Scedy link and is delivered once and in order (R297). -/
  | scedyFlit (k : Nat)
  /-- A link or port path is lost, so later traffic is zeroed, dropped or faulted (R297). -/
  | linkLoss (k : Nat)
  /-- After its leases expire, a channel enters self-refresh or power-down (R300). -/
  | channelPowerEntry (chan : Nat)
  /-- An arrival at a channel in a low state wakes it and is performed after exit (R300). -/
  | channelWake (chan : Nat)
  /-- A word with a reserved major opcode, function, variant, cond or op, a misplaced P bit or a lone EXT issues and traps with cause 0x01 (R35). -/
  | illegalInstruction
  /-- The core's rotation counter returns to 0, so cr.core.LOCK takes effect and newly launched or resumed threads start to compete for issue (R133). -/
  | rotationBoundary (core : Nat)
  /-- A victim's answer to a steal request reaches the thief core, which takes the item or sends its next request (R319). -/
  | stealReply (k : Nat)
deriving DecidableEq, Repr, Inhabited

/-- A word of the program: the pair bit P, the switch marker W and the instruction (R18). -/
structure InstrWord where
  p : Bool
  w : Bool
  instr : Instr
deriving DecidableEq, Repr

end Sys2Proof
end

