-- ==== Sys2Proof/WellFormed.lean ====
section
/-! DEFINITION. What makes an instruction well formed: every operand code names something (R29), every
immediate is one its description defines (R28), and the few forms R97, R165, R177, R179, R213 and R252 rule out. -/

set_option Elab.async false

namespace Sys2Proof

/-- Which kind of operand a field names (R29). -/
inductive Pos where
  | scalar | vector | mask
deriving DecidableEq, Repr

/-- Whether the field is read, written, or both. -/
inductive Role where
  | src | dst | both
deriving DecidableEq, Repr

/-- One register field of an instruction. -/
structure Use where
  pos : Pos
  role : Role
  code : Opd
deriving DecidableEq, Repr

/-- The code names a queue (R29). -/
def Opd.isQueue (c : Opd) : Bool := 32 ≤ c.toNat && c.toNat < 40

/-- The code is one R29 assigns in its position; a register that is written and read may not be a queue
(R97, R252); in a vector position it is `immOk` that rules `vins` out (R165), since the narrowing conversions push
(R179). -/
def Use.ok (u : Use) : Bool :=
  match u.pos with
  | .mask => u.code.toNat < 8
  | .scalar => u.code.toNat < 32 || (u.code.isQueue && u.role != .both)
  | .vector => u.code.toNat < 40

/-- The register fields of an instruction, sources in the order in which queues pop (R31). -/
def Instr.uses : Instr → List Use
  | .add d a b => [⟨.scalar, .dst, d⟩, ⟨.scalar, .src, a⟩, ⟨.scalar, .src, b⟩]
  | .sub d a b => [⟨.scalar, .dst, d⟩, ⟨.scalar, .src, a⟩, ⟨.scalar, .src, b⟩]
  | .and d a b => [⟨.scalar, .dst, d⟩, ⟨.scalar, .src, a⟩, ⟨.scalar, .src, b⟩]
  | .or d a b => [⟨.scalar, .dst, d⟩, ⟨.scalar, .src, a⟩, ⟨.scalar, .src, b⟩]
  | .xor d a b => [⟨.scalar, .dst, d⟩, ⟨.scalar, .src, a⟩, ⟨.scalar, .src, b⟩]
  | .andn d a b => [⟨.scalar, .dst, d⟩, ⟨.scalar, .src, a⟩, ⟨.scalar, .src, b⟩]
  | .shl d a b => [⟨.scalar, .dst, d⟩, ⟨.scalar, .src, a⟩, ⟨.scalar, .src, b⟩]
  | .shr d a b => [⟨.scalar, .dst, d⟩, ⟨.scalar, .src, a⟩, ⟨.scalar, .src, b⟩]
  | .sra d a b => [⟨.scalar, .dst, d⟩, ⟨.scalar, .src, a⟩, ⟨.scalar, .src, b⟩]
  | .rol d a b => [⟨.scalar, .dst, d⟩, ⟨.scalar, .src, a⟩, ⟨.scalar, .src, b⟩]
  | .min d a b => [⟨.scalar, .dst, d⟩, ⟨.scalar, .src, a⟩, ⟨.scalar, .src, b⟩]
  | .max d a b => [⟨.scalar, .dst, d⟩, ⟨.scalar, .src, a⟩, ⟨.scalar, .src, b⟩]
  | .minu d a b => [⟨.scalar, .dst, d⟩, ⟨.scalar, .src, a⟩, ⟨.scalar, .src, b⟩]
  | .maxu d a b => [⟨.scalar, .dst, d⟩, ⟨.scalar, .src, a⟩, ⟨.scalar, .src, b⟩]
  | .mul d a b => [⟨.scalar, .dst, d⟩, ⟨.scalar, .src, a⟩, ⟨.scalar, .src, b⟩]
  | .mulh d a b => [⟨.scalar, .dst, d⟩, ⟨.scalar, .src, a⟩, ⟨.scalar, .src, b⟩]
  | .mulhu d a b => [⟨.scalar, .dst, d⟩, ⟨.scalar, .src, a⟩, ⟨.scalar, .src, b⟩]
  | .div d a b => [⟨.scalar, .dst, d⟩, ⟨.scalar, .src, a⟩, ⟨.scalar, .src, b⟩]
  | .divu d a b => [⟨.scalar, .dst, d⟩, ⟨.scalar, .src, a⟩, ⟨.scalar, .src, b⟩]
  | .rem d a b => [⟨.scalar, .dst, d⟩, ⟨.scalar, .src, a⟩, ⟨.scalar, .src, b⟩]
  | .remu d a b => [⟨.scalar, .dst, d⟩, ⟨.scalar, .src, a⟩, ⟨.scalar, .src, b⟩]
  | .clz d a => [⟨.scalar, .dst, d⟩, ⟨.scalar, .src, a⟩]
  | .ctz d a => [⟨.scalar, .dst, d⟩, ⟨.scalar, .src, a⟩]
  | .popc d a => [⟨.scalar, .dst, d⟩, ⟨.scalar, .src, a⟩]
  | .sextB d a => [⟨.scalar, .dst, d⟩, ⟨.scalar, .src, a⟩]
  | .sextH d a => [⟨.scalar, .dst, d⟩, ⟨.scalar, .src, a⟩]
  | .sextW d a => [⟨.scalar, .dst, d⟩, ⟨.scalar, .src, a⟩]
  | .zextB d a => [⟨.scalar, .dst, d⟩, ⟨.scalar, .src, a⟩]
  | .zextH d a => [⟨.scalar, .dst, d⟩, ⟨.scalar, .src, a⟩]
  | .zextW d a => [⟨.scalar, .dst, d⟩, ⟨.scalar, .src, a⟩]
  | .cmpEq d a b => [⟨.scalar, .dst, d⟩, ⟨.scalar, .src, a⟩, ⟨.scalar, .src, b⟩]
  | .cmpNe d a b => [⟨.scalar, .dst, d⟩, ⟨.scalar, .src, a⟩, ⟨.scalar, .src, b⟩]
  | .cmpLt d a b => [⟨.scalar, .dst, d⟩, ⟨.scalar, .src, a⟩, ⟨.scalar, .src, b⟩]
  | .cmpGe d a b => [⟨.scalar, .dst, d⟩, ⟨.scalar, .src, a⟩, ⟨.scalar, .src, b⟩]
  | .cmpLtu d a b => [⟨.scalar, .dst, d⟩, ⟨.scalar, .src, a⟩, ⟨.scalar, .src, b⟩]
  | .cmpGeu d a b => [⟨.scalar, .dst, d⟩, ⟨.scalar, .src, a⟩, ⟨.scalar, .src, b⟩]
  | .sel d a b c => [⟨.scalar, .dst, d⟩, ⟨.scalar, .src, a⟩, ⟨.scalar, .src, b⟩, ⟨.scalar, .src, c⟩]
  | .addi d a _ => [⟨.scalar, .dst, d⟩, ⟨.scalar, .src, a⟩]
  | .andi d a _ => [⟨.scalar, .dst, d⟩, ⟨.scalar, .src, a⟩]
  | .ori d a _ => [⟨.scalar, .dst, d⟩, ⟨.scalar, .src, a⟩]
  | .xori d a _ => [⟨.scalar, .dst, d⟩, ⟨.scalar, .src, a⟩]
  | .movi d _ _ => [⟨.scalar, .dst, d⟩]
  | .movk d _ _ => [⟨.scalar, .both, d⟩]
  | .fadd d a b => [⟨.scalar, .dst, d⟩, ⟨.scalar, .src, a⟩, ⟨.scalar, .src, b⟩]
  | .fsub d a b => [⟨.scalar, .dst, d⟩, ⟨.scalar, .src, a⟩, ⟨.scalar, .src, b⟩]
  | .fmul d a b => [⟨.scalar, .dst, d⟩, ⟨.scalar, .src, a⟩, ⟨.scalar, .src, b⟩]
  | .fmin d a b => [⟨.scalar, .dst, d⟩, ⟨.scalar, .src, a⟩, ⟨.scalar, .src, b⟩]
  | .fmax d a b => [⟨.scalar, .dst, d⟩, ⟨.scalar, .src, a⟩, ⟨.scalar, .src, b⟩]
  | .fdiv d a b => [⟨.scalar, .dst, d⟩, ⟨.scalar, .src, a⟩, ⟨.scalar, .src, b⟩]
  | .fsqrt d a => [⟨.scalar, .dst, d⟩, ⟨.scalar, .src, a⟩]
  | .fclass d a => [⟨.scalar, .dst, d⟩, ⟨.scalar, .src, a⟩]
  | .fcmpEq d a b => [⟨.scalar, .dst, d⟩, ⟨.scalar, .src, a⟩, ⟨.scalar, .src, b⟩]
  | .fcmpLt d a b => [⟨.scalar, .dst, d⟩, ⟨.scalar, .src, a⟩, ⟨.scalar, .src, b⟩]
  | .fcmpLe d a b => [⟨.scalar, .dst, d⟩, ⟨.scalar, .src, a⟩, ⟨.scalar, .src, b⟩]
  | .fcmpUn d a b => [⟨.scalar, .dst, d⟩, ⟨.scalar, .src, a⟩, ⟨.scalar, .src, b⟩]
  | .fsgnJ d a b => [⟨.scalar, .dst, d⟩, ⟨.scalar, .src, a⟩, ⟨.scalar, .src, b⟩]
  | .fsgnN d a b => [⟨.scalar, .dst, d⟩, ⟨.scalar, .src, a⟩, ⟨.scalar, .src, b⟩]
  | .fsgnX d a b => [⟨.scalar, .dst, d⟩, ⟨.scalar, .src, a⟩, ⟨.scalar, .src, b⟩]
  | .fcvtFI d a => [⟨.scalar, .dst, d⟩, ⟨.scalar, .src, a⟩]
  | .fcvtFIu d a => [⟨.scalar, .dst, d⟩, ⟨.scalar, .src, a⟩]
  | .fcvtIF d a => [⟨.scalar, .dst, d⟩, ⟨.scalar, .src, a⟩]
  | .fcvtIuF d a => [⟨.scalar, .dst, d⟩, ⟨.scalar, .src, a⟩]
  | .ffma d a b c => [⟨.scalar, .dst, d⟩, ⟨.scalar, .src, a⟩, ⟨.scalar, .src, b⟩, ⟨.scalar, .src, c⟩]
  | .vadd d a b _ => [⟨.vector, .dst, d⟩, ⟨.vector, .src, a⟩, ⟨.vector, .src, b⟩]
  | .vsub d a b _ => [⟨.vector, .dst, d⟩, ⟨.vector, .src, a⟩, ⟨.vector, .src, b⟩]
  | .vmul d a b _ => [⟨.vector, .dst, d⟩, ⟨.vector, .src, a⟩, ⟨.vector, .src, b⟩]
  | .vmin d a b _ => [⟨.vector, .dst, d⟩, ⟨.vector, .src, a⟩, ⟨.vector, .src, b⟩]
  | .vmax d a b _ => [⟨.vector, .dst, d⟩, ⟨.vector, .src, a⟩, ⟨.vector, .src, b⟩]
  | .vdiv d a b _ => [⟨.vector, .dst, d⟩, ⟨.vector, .src, a⟩, ⟨.vector, .src, b⟩]
  | .vsqrt d a _ => [⟨.vector, .dst, d⟩, ⟨.vector, .src, a⟩]
  | .vabs d a _ => [⟨.vector, .dst, d⟩, ⟨.vector, .src, a⟩]
  | .vexp2 d a _ => [⟨.vector, .dst, d⟩, ⟨.vector, .src, a⟩]
  | .vlog2 d a _ => [⟨.vector, .dst, d⟩, ⟨.vector, .src, a⟩]
  | .vrcp d a _ => [⟨.vector, .dst, d⟩, ⟨.vector, .src, a⟩]
  | .vrsq d a _ => [⟨.vector, .dst, d⟩, ⟨.vector, .src, a⟩]
  | .vneg d a _ => [⟨.vector, .dst, d⟩, ⟨.vector, .src, a⟩]
  | .vfma d a b c => [⟨.vector, .dst, d⟩, ⟨.vector, .src, a⟩, ⟨.vector, .src, b⟩, ⟨.vector, .src, c⟩]
  | .vfnma d a b c => [⟨.vector, .dst, d⟩, ⟨.vector, .src, a⟩, ⟨.vector, .src, b⟩, ⟨.vector, .src, c⟩]
  | .vaddI d a b _ => [⟨.vector, .dst, d⟩, ⟨.vector, .src, a⟩, ⟨.vector, .src, b⟩]
  | .vsubI d a b _ => [⟨.vector, .dst, d⟩, ⟨.vector, .src, a⟩, ⟨.vector, .src, b⟩]
  | .vmulI d a b _ => [⟨.vector, .dst, d⟩, ⟨.vector, .src, a⟩, ⟨.vector, .src, b⟩]
  | .vand d a b _ => [⟨.vector, .dst, d⟩, ⟨.vector, .src, a⟩, ⟨.vector, .src, b⟩]
  | .vor d a b _ => [⟨.vector, .dst, d⟩, ⟨.vector, .src, a⟩, ⟨.vector, .src, b⟩]
  | .vxor d a b _ => [⟨.vector, .dst, d⟩, ⟨.vector, .src, a⟩, ⟨.vector, .src, b⟩]
  | .vshl d a b _ => [⟨.vector, .dst, d⟩, ⟨.vector, .src, a⟩, ⟨.vector, .src, b⟩]
  | .vshr d a b _ => [⟨.vector, .dst, d⟩, ⟨.vector, .src, a⟩, ⟨.vector, .src, b⟩]
  | .vsra d a b _ => [⟨.vector, .dst, d⟩, ⟨.vector, .src, a⟩, ⟨.vector, .src, b⟩]
  | .vminI d a b _ => [⟨.vector, .dst, d⟩, ⟨.vector, .src, a⟩, ⟨.vector, .src, b⟩]
  | .vmaxI d a b _ => [⟨.vector, .dst, d⟩, ⟨.vector, .src, a⟩, ⟨.vector, .src, b⟩]
  | .vminu d a b _ => [⟨.vector, .dst, d⟩, ⟨.vector, .src, a⟩, ⟨.vector, .src, b⟩]
  | .vmaxu d a b _ => [⟨.vector, .dst, d⟩, ⟨.vector, .src, a⟩, ⟨.vector, .src, b⟩]
  | .vandn d a b _ => [⟨.vector, .dst, d⟩, ⟨.vector, .src, a⟩, ⟨.vector, .src, b⟩]
  | .vcmpEq d a b _ => [⟨.mask, .dst, d⟩, ⟨.vector, .src, a⟩, ⟨.vector, .src, b⟩]
  | .vcmpLt d a b _ => [⟨.mask, .dst, d⟩, ⟨.vector, .src, a⟩, ⟨.vector, .src, b⟩]
  | .vcmpLe d a b _ => [⟨.mask, .dst, d⟩, ⟨.vector, .src, a⟩, ⟨.vector, .src, b⟩]
  | .vcmpUn d a b _ => [⟨.mask, .dst, d⟩, ⟨.vector, .src, a⟩, ⟨.vector, .src, b⟩]
  | .vcmpEqI d a b _ => [⟨.mask, .dst, d⟩, ⟨.vector, .src, a⟩, ⟨.vector, .src, b⟩]
  | .vcmpLtI d a b _ => [⟨.mask, .dst, d⟩, ⟨.vector, .src, a⟩, ⟨.vector, .src, b⟩]
  | .vcmpLtu d a b _ => [⟨.mask, .dst, d⟩, ⟨.vector, .src, a⟩, ⟨.vector, .src, b⟩]
  | .vsel d a b c => [⟨.vector, .dst, d⟩, ⟨.vector, .src, a⟩, ⟨.vector, .src, b⟩, ⟨.mask, .src, c⟩]
  | .vcvtUp d a _ _ => [⟨.vector, .dst, d⟩, ⟨.vector, .src, a⟩]
  | .vcvtDn d a _ _ => [⟨.vector, .both, d⟩, ⟨.vector, .src, a⟩]
  | .vcvtDnSat d a _ _ => [⟨.vector, .both, d⟩, ⟨.vector, .src, a⟩]
  | .vcvtDnSr d a _ _ => [⟨.vector, .both, d⟩, ⟨.vector, .src, a⟩]
  | .vcvtDnSrSat d a _ _ => [⟨.vector, .both, d⟩, ⟨.vector, .src, a⟩]
  | .vcvtDnRtz d a _ _ => [⟨.vector, .both, d⟩, ⟨.vector, .src, a⟩]
  | .vperm d a b _ => [⟨.vector, .dst, d⟩, ⟨.vector, .src, a⟩, ⟨.vector, .src, b⟩]
  | .vbcast d a _ => [⟨.vector, .dst, d⟩, ⟨.scalar, .src, a⟩]
  | .vins d a _ _ => [⟨.vector, .both, d⟩, ⟨.scalar, .src, a⟩]
  | .vext d a _ => [⟨.scalar, .dst, d⟩, ⟨.vector, .src, a⟩]
  | .vredAdd d a _ => [⟨.scalar, .dst, d⟩, ⟨.vector, .src, a⟩]
  | .vredMax d a _ => [⟨.scalar, .dst, d⟩, ⟨.vector, .src, a⟩]
  | .vredMin d a _ => [⟨.scalar, .dst, d⟩, ⟨.vector, .src, a⟩]
  | .mand d a b => [⟨.mask, .dst, d⟩, ⟨.mask, .src, a⟩, ⟨.mask, .src, b⟩]
  | .mor d a b => [⟨.mask, .dst, d⟩, ⟨.mask, .src, a⟩, ⟨.mask, .src, b⟩]
  | .mnot d a => [⟨.mask, .dst, d⟩, ⟨.mask, .src, a⟩]
  | .mpopc d a => [⟨.scalar, .dst, d⟩, ⟨.mask, .src, a⟩]
  | .vaddBf d a b _ => [⟨.vector, .dst, d⟩, ⟨.vector, .src, a⟩, ⟨.vector, .src, b⟩]
  | .vmulBf d a b _ => [⟨.vector, .dst, d⟩, ⟨.vector, .src, a⟩, ⟨.vector, .src, b⟩]
  | .vaddHf d a b _ => [⟨.vector, .dst, d⟩, ⟨.vector, .src, a⟩, ⟨.vector, .src, b⟩]
  | .vmulHf d a b _ => [⟨.vector, .dst, d⟩, ⟨.vector, .src, a⟩, ⟨.vector, .src, b⟩]
  | .vaddI16 d a b _ => [⟨.vector, .dst, d⟩, ⟨.vector, .src, a⟩, ⟨.vector, .src, b⟩]
  | .vsubI16 d a b _ => [⟨.vector, .dst, d⟩, ⟨.vector, .src, a⟩, ⟨.vector, .src, b⟩]
  | .vaddI8 d a b _ => [⟨.vector, .dst, d⟩, ⟨.vector, .src, a⟩, ⟨.vector, .src, b⟩]
  | .vsubI8 d a b _ => [⟨.vector, .dst, d⟩, ⟨.vector, .src, a⟩, ⟨.vector, .src, b⟩]
  | .j _ => []
  | .jl _ => []
  | .jlL _ => []
  | .bEq a b _ => [⟨.scalar, .src, a⟩, ⟨.scalar, .src, b⟩]
  | .bNe a b _ => [⟨.scalar, .src, a⟩, ⟨.scalar, .src, b⟩]
  | .bLt a b _ => [⟨.scalar, .src, a⟩, ⟨.scalar, .src, b⟩]
  | .bGe a b _ => [⟨.scalar, .src, a⟩, ⟨.scalar, .src, b⟩]
  | .bLtu a b _ => [⟨.scalar, .src, a⟩, ⟨.scalar, .src, b⟩]
  | .bGeu a b _ => [⟨.scalar, .src, a⟩, ⟨.scalar, .src, b⟩]
  | .bBset a _ _ => [⟨.scalar, .src, a⟩]
  | .bBclr a _ _ => [⟨.scalar, .src, a⟩]
  | .jr a => [⟨.scalar, .src, a⟩]
  | .jrA a => [⟨.scalar, .src, a⟩]
  | .jlr a => [⟨.scalar, .src, a⟩]
  | .jlrA a => [⟨.scalar, .src, a⟩]
  | .ldB t base _ => [⟨.scalar, .src, base⟩, ⟨.scalar, .dst, t⟩]
  | .ldH t base _ => [⟨.scalar, .src, base⟩, ⟨.scalar, .dst, t⟩]
  | .ldW t base _ => [⟨.scalar, .src, base⟩, ⟨.scalar, .dst, t⟩]
  | .ldD t base _ => [⟨.scalar, .src, base⟩, ⟨.scalar, .dst, t⟩]
  | .ldBu t base _ => [⟨.scalar, .src, base⟩, ⟨.scalar, .dst, t⟩]
  | .ldHu t base _ => [⟨.scalar, .src, base⟩, ⟨.scalar, .dst, t⟩]
  | .ldWu t base _ => [⟨.scalar, .src, base⟩, ⟨.scalar, .dst, t⟩]
  | .stB t base _ => [⟨.scalar, .src, base⟩, ⟨.scalar, .src, t⟩]
  | .stH t base _ => [⟨.scalar, .src, base⟩, ⟨.scalar, .src, t⟩]
  | .stW t base _ => [⟨.scalar, .src, base⟩, ⟨.scalar, .src, t⟩]
  | .stD t base _ => [⟨.scalar, .src, base⟩, ⟨.scalar, .src, t⟩]
  | .ldFe t base _ => [⟨.scalar, .src, base⟩, ⟨.scalar, .dst, t⟩]
  | .ldFf t base _ => [⟨.scalar, .src, base⟩, ⟨.scalar, .dst, t⟩]
  | .stEf t base _ => [⟨.scalar, .src, base⟩, ⟨.scalar, .src, t⟩]
  | .stF t base _ => [⟨.scalar, .src, base⟩, ⟨.scalar, .src, t⟩]
  | .ldw t base _ => [⟨.scalar, .src, base⟩, ⟨.scalar, .dst, t⟩]
  | .pf _ base _ => [⟨.scalar, .src, base⟩]
  | .ipf _ base _ => [⟨.scalar, .src, base⟩]
  | .vld t base _ => [⟨.scalar, .src, base⟩, ⟨.vector, .dst, t⟩]
  | .vst t base _ => [⟨.scalar, .src, base⟩, ⟨.vector, .src, t⟩]
  | .vldw t base _ => [⟨.scalar, .src, base⟩, ⟨.vector, .dst, t⟩]
  | .vstw t base _ => [⟨.scalar, .src, base⟩, ⟨.vector, .src, t⟩]
  | .vgat a b c _ => [⟨.vector, .dst, a⟩, ⟨.scalar, .src, b⟩, ⟨.vector, .src, c⟩]
  | .vsct a b c _ => [⟨.vector, .src, a⟩, ⟨.scalar, .src, b⟩, ⟨.vector, .src, c⟩]
  | .fenceCore => []
  | .fenceCl => []
  | .fenceDie => []
  | .fenceSys => []
  | .tlbInv a b c => [⟨.scalar, .src, a⟩, ⟨.scalar, .src, b⟩, ⟨.scalar, .src, c⟩]
  | .tlbSync => []
  | .dcWb a b => [⟨.scalar, .src, a⟩, ⟨.scalar, .src, b⟩]
  | .dcInv a b => [⟨.scalar, .src, a⟩, ⟨.scalar, .src, b⟩]
  | .dcWbinv a b => [⟨.scalar, .src, a⟩, ⟨.scalar, .src, b⟩]
  | .icInv a b => [⟨.scalar, .src, a⟩, ⟨.scalar, .src, b⟩]
  | .tNew a b => [⟨.scalar, .dst, a⟩, ⟨.scalar, .src, b⟩]
  | .tFree a => [⟨.scalar, .src, a⟩]
  | .tLd a b => [⟨.scalar, .src, a⟩, ⟨.scalar, .src, b⟩]
  | .tSt a b => [⟨.scalar, .src, a⟩, ⟨.scalar, .src, b⟩]
  | .tGat a b c => [⟨.scalar, .src, a⟩, ⟨.scalar, .src, b⟩, ⟨.scalar, .src, c⟩]
  | .tPhr a b c => [⟨.scalar, .src, a⟩, ⟨.scalar, .src, b⟩, ⟨.scalar, .src, c⟩]
  | .tQ a b _ => [⟨.scalar, .dst, a⟩, ⟨.scalar, .src, b⟩]
  | .tWiden a b c => [⟨.scalar, .dst, a⟩, ⟨.scalar, .src, b⟩, ⟨.scalar, .src, c⟩]
  | .mxLease => []
  | .mxFree a => [⟨.scalar, .dst, a⟩]
  | .mxCfg a => [⟨.scalar, .src, a⟩]
  | .mxMma a b _ => [⟨.scalar, .src, a⟩, ⟨.scalar, .src, b⟩]
  | .mxSp a b _ => [⟨.scalar, .src, a⟩, ⟨.scalar, .src, b⟩]
  | .mxZero _ => []
  | .mxLd a _ => [⟨.scalar, .src, a⟩]
  | .mxSt a _ => [⟨.scalar, .src, a⟩]
  | .bkAdd a b c => [⟨.scalar, .src, a⟩, ⟨.scalar, .src, b⟩, ⟨.scalar, .src, c⟩]
  | .bkMul a b c => [⟨.scalar, .src, a⟩, ⟨.scalar, .src, b⟩, ⟨.scalar, .src, c⟩]
  | .bkFma a b c => [⟨.scalar, .src, a⟩, ⟨.scalar, .src, b⟩, ⟨.scalar, .src, c⟩]
  | .bkMax a b c => [⟨.scalar, .src, a⟩, ⟨.scalar, .src, b⟩, ⟨.scalar, .src, c⟩]
  | .bkMin a b c => [⟨.scalar, .src, a⟩, ⟨.scalar, .src, b⟩, ⟨.scalar, .src, c⟩]
  | .bkFill a b c => [⟨.scalar, .src, a⟩, ⟨.scalar, .src, b⟩, ⟨.scalar, .src, c⟩]
  | .bkCvt a b c => [⟨.scalar, .src, a⟩, ⟨.scalar, .src, b⟩, ⟨.scalar, .src, c⟩]
  | .bkSum a b c => [⟨.scalar, .src, a⟩, ⟨.scalar, .src, b⟩, ⟨.scalar, .src, c⟩]
  | .bkOsm a b c => [⟨.scalar, .src, a⟩, ⟨.scalar, .src, b⟩, ⟨.scalar, .src, c⟩]
  | .upOpen a b => [⟨.scalar, .dst, a⟩, ⟨.scalar, .src, b⟩]
  | .upEmit a b c => [⟨.scalar, .src, a⟩, ⟨.scalar, .src, b⟩, ⟨.scalar, .src, c⟩]
  | .upEmitv a b c => [⟨.scalar, .src, a⟩, ⟨.scalar, .src, b⟩, ⟨.vector, .src, c⟩]
  | .upFlush a b => [⟨.scalar, .dst, a⟩, ⟨.scalar, .src, b⟩]
  | .upClose a => [⟨.scalar, .src, a⟩]
  | .upSt a b _ => [⟨.scalar, .dst, a⟩, ⟨.scalar, .src, b⟩]
  | .cp a _ _ => [⟨.scalar, .src, a⟩]
  | .cp2d a _ _ => [⟨.scalar, .src, a⟩]
  | .cpT a _ _ => [⟨.scalar, .src, a⟩]
  | .tagWaitAll a => [⟨.scalar, .src, a⟩]
  | .tagWaitAny a b => [⟨.scalar, .dst, a⟩, ⟨.scalar, .src, b⟩]
  | .tagFfr a b => [⟨.scalar, .dst, a⟩, ⟨.scalar, .src, b⟩]
  | .tlRd a b _ => [⟨.scalar, .dst, a⟩, ⟨.scalar, .src, b⟩]
  | .tlWait a b _ => [⟨.scalar, .src, a⟩, ⟨.scalar, .src, b⟩]
  | .amoAdd _ a b c => [⟨.scalar, .dst, a⟩, ⟨.scalar, .src, b⟩, ⟨.scalar, .src, c⟩]
  | .amoAnd _ a b c => [⟨.scalar, .dst, a⟩, ⟨.scalar, .src, b⟩, ⟨.scalar, .src, c⟩]
  | .amoOr _ a b c => [⟨.scalar, .dst, a⟩, ⟨.scalar, .src, b⟩, ⟨.scalar, .src, c⟩]
  | .amoXor _ a b c => [⟨.scalar, .dst, a⟩, ⟨.scalar, .src, b⟩, ⟨.scalar, .src, c⟩]
  | .amoMin _ a b c => [⟨.scalar, .dst, a⟩, ⟨.scalar, .src, b⟩, ⟨.scalar, .src, c⟩]
  | .amoMax _ a b c => [⟨.scalar, .dst, a⟩, ⟨.scalar, .src, b⟩, ⟨.scalar, .src, c⟩]
  | .amoMinu _ a b c => [⟨.scalar, .dst, a⟩, ⟨.scalar, .src, b⟩, ⟨.scalar, .src, c⟩]
  | .amoMaxu _ a b c => [⟨.scalar, .dst, a⟩, ⟨.scalar, .src, b⟩, ⟨.scalar, .src, c⟩]
  | .amoSwap _ a b c => [⟨.scalar, .dst, a⟩, ⟨.scalar, .src, b⟩, ⟨.scalar, .src, c⟩]
  | .amoCas _ a b c => [⟨.scalar, .both, a⟩, ⟨.scalar, .src, b⟩, ⟨.scalar, .src, c⟩]
  | .barInit a b => [⟨.scalar, .src, a⟩, ⟨.scalar, .src, b⟩]
  | .barArr a => [⟨.scalar, .src, a⟩]
  | .barExp a b => [⟨.scalar, .src, a⟩, ⟨.scalar, .src, b⟩]
  | .barWait a b => [⟨.scalar, .src, a⟩, ⟨.scalar, .src, b⟩]
  | .monArm a => [⟨.scalar, .src, a⟩]
  | .monWait a b => [⟨.scalar, .dst, a⟩, ⟨.scalar, .src, b⟩]
  | .monClr a => [⟨.scalar, .src, a⟩]
  | .msgSend a b c => [⟨.scalar, .src, a⟩, ⟨.scalar, .src, b⟩, ⟨.scalar, .src, c⟩]
  | .msgWait => []
  | .msgPop a b => [⟨.scalar, .dst, a⟩, ⟨.scalar, .dst, b⟩]
  | .take a b => [⟨.scalar, .dst, a⟩, ⟨.scalar, .dst, b⟩]
  | .done => []
  | .emit _ b c => [⟨.scalar, .src, b⟩, ⟨.scalar, .src, c⟩]
  | .susp a b => [⟨.scalar, .src, a⟩, ⟨.scalar, .src, b⟩]
  | .futInit a => [⟨.scalar, .src, a⟩]
  | .futReg a b c => [⟨.scalar, .dst, a⟩, ⟨.scalar, .src, b⟩, ⟨.scalar, .src, c⟩]
  | .futRes a b => [⟨.scalar, .src, a⟩, ⟨.scalar, .src, b⟩]
  | .futResP a b => [⟨.scalar, .src, a⟩, ⟨.scalar, .src, b⟩]
  | .futRd a b => [⟨.scalar, .dst, a⟩, ⟨.scalar, .src, b⟩]
  | .futRdS a b => [⟨.scalar, .dst, a⟩, ⟨.scalar, .src, b⟩]
  | .gNotify a b _ => [⟨.scalar, .dst, a⟩, ⟨.scalar, .src, b⟩]
  | .gLaunch a b c => [⟨.scalar, .dst, a⟩, ⟨.scalar, .src, b⟩, ⟨.scalar, .src, c⟩]
  | .phLease a b c => [⟨.scalar, .dst, a⟩, ⟨.scalar, .src, b⟩, ⟨.scalar, .src, c⟩]
  | .phRun a b c => [⟨.scalar, .dst, a⟩, ⟨.scalar, .src, b⟩, ⟨.scalar, .src, c⟩]
  | .phFree a => [⟨.scalar, .src, a⟩]
  | .tkArm a b _ => [⟨.scalar, .src, a⟩, ⟨.scalar, .src, b⟩]
  | .tkBud a b _ => [⟨.scalar, .src, a⟩, ⟨.scalar, .src, b⟩]
  | .tkCmt a b c => [⟨.scalar, .dst, a⟩, ⟨.scalar, .src, b⟩, ⟨.scalar, .src, c⟩]
  | .tkDraft a b => [⟨.scalar, .src, a⟩, ⟨.scalar, .src, b⟩]
  | .tkConf a b c => [⟨.scalar, .dst, a⟩, ⟨.scalar, .src, b⟩, ⟨.scalar, .src, c⟩]
  | .tkNext a b => [⟨.scalar, .dst, a⟩, ⟨.scalar, .src, b⟩]
  | .tkSt a b _ => [⟨.scalar, .dst, a⟩, ⟨.scalar, .src, b⟩]
  | .trap _ => []
  | .eret => []
  | .crRd a _ => [⟨.scalar, .dst, a⟩]
  | .crWr a _ => [⟨.scalar, .src, a⟩]
  | .crSet a _ => [⟨.scalar, .src, a⟩]
  | .crClr a _ => [⟨.scalar, .src, a⟩]
  | .repart a b => [⟨.scalar, .dst, a⟩, ⟨.scalar, .src, b⟩]
  | .repartRcl a b => [⟨.scalar, .dst, a⟩, ⟨.scalar, .src, b⟩]
  | .repartStop a b => [⟨.scalar, .dst, a⟩, ⟨.scalar, .src, b⟩]
  | .repartRun a b => [⟨.scalar, .dst, a⟩, ⟨.scalar, .src, b⟩]
  | .halt => []
  | .brk => []
  | .ctrRd a _ => [⟨.scalar, .dst, a⟩]
  | .ctrCfg a _ => [⟨.scalar, .src, a⟩]
  | .ctrClr a => [⟨.scalar, .src, a⟩]
  | .causeRead d => [⟨.scalar, .dst, d⟩]
  | .loadReturn _ => []
  | .fetchReturn _ => []
  | .homeAccess _ => []
  | .fullEmptyArrival _ => []
  | .writeBack _ => []
  | .eviction _ _ => []
  | .monitorTimeout _ _ => []
  | .messageArrival _ => []
  | .handleCommandArrival _ => []
  | .handleCommandCompletion _ => []
  | .wideningConversion _ => []
  | .leaseGrant _ => []
  | .leaseWatchdogExpiry _ => []
  | .arrayCommandCompletion _ => []
  | .bankCommandPerformed _ => []
  | .pairArrival _ => []
  | .applicationEnd _ _ => []
  | .flushArrival _ => []
  | .closeArrival _ => []
  | .copyCompletion _ => []
  | .invalidationArrival _ => []
  | .invalidationAcknowledgement _ => []
  | .migrate _ => []
  | .release _ => []
  | .migrationCompletion _ => []
  | .launchCompletion _ => []
  | .waveDrain _ _ => []
  | .itemArrival _ => []
  | .stealRequest _ => []
  | .stealBackoffExpiry _ => []
  | .probeTimeout _ => []
  | .probeToken _ => []
  | .emergencyEntryRequest _ => []
  | .sealArrival _ => []
  | .resumeNotice _ => []
  | .phraseLeaseGrant _ => []
  | .phraseRunCompletion _ => []
  | .lexrelWrite a => [⟨.scalar, .src, a⟩]
  | .save _ => []
  | .restore _ => []
  | .move _ => []
  | .unfwd _ => []
  | .preemptionCompletion _ => []
  | .debugHalt _ => []
  | .debugResume _ => []
  | .powerOnReset => []
  | .boot _ => []
  | .bootPortTimeout => []
  | .discoveryPacket _ => []
  | .imageDelivery _ => []
  | .imageAcknowledgement _ => []
  | .launch _ => []
  | .map _ => []
  | .copy _ => []
  | .query _ => []
  | .quote _ => []
  | .power _ => []
  | .undefinedLitarMessage _ => []
  | .nonLitarFrame _ => []
  | .priorityFlowControl _ => []
  | .scedyFlit _ => []
  | .linkLoss _ => []
  | .channelPowerEntry _ => []
  | .channelWake _ => []
  | .illegalInstruction => []
  | .rotationBoundary _ => []
  | .stealReply _ => []

/-- The format codes that vcvt accepts (R177). -/
def vcvtFmt (f : Nat) : Bool := [1, 2, 3, 5, 6, 7, 8, 9, 10, 11, 12, 13].contains f || (0x29 ≤ f && f ≤ 0x2E)

/-- A block-scaled format of vcvt: its mask must be m0 in the narrowing direction (R179). -/
def vcvtBlock (f : Nat) : Bool := 0x29 ≤ f && f ≤ 0x2E

/-- The control-register numbers that some chapter assigns (R113). -/
def crAssigned (n : Nat) : Bool :=
  n ≤ 6 || [0x10, 0x11, 0x20, 0x21, 0x22, 0x30, 0x31, 0x32, 0x40, 0x41, 0x42, 0x43, 0x88, 0x90, 0xA0, 0xA1,
    0xB0, 0xB1, 0xB2, 0xB4, 0xB5, 0xB6, 0xB7, 0xC0, 0xC1, 0xC2].contains n || (0x80 ≤ n && n ≤ 0x87)

/-- The immediate fields hold values that the instruction's description defines (R28). -/
def Instr.immOk : Instr → Bool
  | .add _ _ _ => true
  | .sub _ _ _ => true
  | .and _ _ _ => true
  | .or _ _ _ => true
  | .xor _ _ _ => true
  | .andn _ _ _ => true
  | .shl _ _ _ => true
  | .shr _ _ _ => true
  | .sra _ _ _ => true
  | .rol _ _ _ => true
  | .min _ _ _ => true
  | .max _ _ _ => true
  | .minu _ _ _ => true
  | .maxu _ _ _ => true
  | .mul _ _ _ => true
  | .mulh _ _ _ => true
  | .mulhu _ _ _ => true
  | .div _ _ _ => true
  | .divu _ _ _ => true
  | .rem _ _ _ => true
  | .remu _ _ _ => true
  | .clz _ _ => true
  | .ctz _ _ => true
  | .popc _ _ => true
  | .sextB _ _ => true
  | .sextH _ _ => true
  | .sextW _ _ => true
  | .zextB _ _ => true
  | .zextH _ _ => true
  | .zextW _ _ => true
  | .cmpEq _ _ _ => true
  | .cmpNe _ _ _ => true
  | .cmpLt _ _ _ => true
  | .cmpGe _ _ _ => true
  | .cmpLtu _ _ _ => true
  | .cmpGeu _ _ _ => true
  | .sel _ _ _ _ => true
  | .addi _ _ _ => true
  | .andi _ _ _ => true
  | .ori _ _ _ => true
  | .xori _ _ _ => true
  | .movi _ _ _ => true
  | .movk _ _ _ => true
  | .fadd _ _ _ => true
  | .fsub _ _ _ => true
  | .fmul _ _ _ => true
  | .fmin _ _ _ => true
  | .fmax _ _ _ => true
  | .fdiv _ _ _ => true
  | .fsqrt _ _ => true
  | .fclass _ _ => true
  | .fcmpEq _ _ _ => true
  | .fcmpLt _ _ _ => true
  | .fcmpLe _ _ _ => true
  | .fcmpUn _ _ _ => true
  | .fsgnJ _ _ _ => true
  | .fsgnN _ _ _ => true
  | .fsgnX _ _ _ => true
  | .fcvtFI _ _ => true
  | .fcvtFIu _ _ => true
  | .fcvtIF _ _ => true
  | .fcvtIuF _ _ => true
  | .ffma _ _ _ _ => true
  | .vadd _ _ _ _ => true
  | .vsub _ _ _ _ => true
  | .vmul _ _ _ _ => true
  | .vmin _ _ _ _ => true
  | .vmax _ _ _ _ => true
  | .vdiv _ _ _ _ => true
  | .vsqrt _ _ _ => true
  | .vabs _ _ _ => true
  | .vexp2 _ _ _ => true
  | .vlog2 _ _ _ => true
  | .vrcp _ _ _ => true
  | .vrsq _ _ _ => true
  | .vneg _ _ _ => true
  | .vfma _ _ _ _ => true
  | .vfnma _ _ _ _ => true
  | .vaddI _ _ _ _ => true
  | .vsubI _ _ _ _ => true
  | .vmulI _ _ _ _ => true
  | .vand _ _ _ _ => true
  | .vor _ _ _ _ => true
  | .vxor _ _ _ _ => true
  | .vshl _ _ _ _ => true
  | .vshr _ _ _ _ => true
  | .vsra _ _ _ _ => true
  | .vminI _ _ _ _ => true
  | .vmaxI _ _ _ _ => true
  | .vminu _ _ _ _ => true
  | .vmaxu _ _ _ _ => true
  | .vandn _ _ _ _ => true
  | .vcmpEq _ _ _ _ => true
  | .vcmpLt _ _ _ _ => true
  | .vcmpLe _ _ _ _ => true
  | .vcmpUn _ _ _ _ => true
  | .vcmpEqI _ _ _ _ => true
  | .vcmpLtI _ _ _ _ => true
  | .vcmpLtu _ _ _ _ => true
  | .vsel _ _ _ _ => true
  | .vcvtUp _ _ f _ => vcvtFmt f.toNat
  | .vcvtDn _ _ f m => vcvtFmt f.toNat && (!vcvtBlock f.toNat || m == 0)
  | .vcvtDnSat _ _ f m => vcvtFmt f.toNat && (!vcvtBlock f.toNat || m == 0)
  | .vcvtDnSr _ _ f m => vcvtFmt f.toNat && (!vcvtBlock f.toNat || m == 0)
  | .vcvtDnSrSat _ _ f m => vcvtFmt f.toNat && (!vcvtBlock f.toNat || m == 0)
  | .vcvtDnRtz _ _ f m => vcvtFmt f.toNat && (!vcvtBlock f.toNat || m == 0)
  | .vperm _ _ _ _ => true
  | .vbcast _ _ _ => true
  | .vins d _ n _ => d.toNat < 32 && n.toNat ≤ 15
  | .vext _ _ n => n.toNat ≤ 15
  | .vredAdd _ _ _ => true
  | .vredMax _ _ _ => true
  | .vredMin _ _ _ => true
  | .mand _ _ _ => true
  | .mor _ _ _ => true
  | .mnot _ _ => true
  | .mpopc _ _ => true
  | .vaddBf _ _ _ _ => true
  | .vmulBf _ _ _ _ => true
  | .vaddHf _ _ _ _ => true
  | .vmulHf _ _ _ _ => true
  | .vaddI16 _ _ _ _ => true
  | .vsubI16 _ _ _ _ => true
  | .vaddI8 _ _ _ _ => true
  | .vsubI8 _ _ _ _ => true
  | .j _ => true
  | .jl _ => true
  | .jlL _ => true
  | .bEq _ _ _ => true
  | .bNe _ _ _ => true
  | .bLt _ _ _ => true
  | .bGe _ _ _ => true
  | .bLtu _ _ _ => true
  | .bGeu _ _ _ => true
  | .bBset _ _ _ => true
  | .bBclr _ _ _ => true
  | .jr _ => true
  | .jrA _ => true
  | .jlr _ => true
  | .jlrA _ => true
  | .ldB _ _ _ => true
  | .ldH _ _ _ => true
  | .ldW _ _ _ => true
  | .ldD _ _ _ => true
  | .ldBu _ _ _ => true
  | .ldHu _ _ _ => true
  | .ldWu _ _ _ => true
  | .stB _ _ _ => true
  | .stH _ _ _ => true
  | .stW _ _ _ => true
  | .stD _ _ _ => true
  | .ldFe _ _ _ => true
  | .ldFf _ _ _ => true
  | .stEf _ _ _ => true
  | .stF _ _ _ => true
  | .ldw _ _ _ => true
  | .pf lvl _ _ => lvl.toNat ≤ 1
  | .ipf lvl _ _ => lvl.toNat ≤ 1
  | .vld _ _ _ => true
  | .vst _ _ _ => true
  | .vldw _ _ _ => true
  | .vstw _ _ _ => true
  | .vgat _ _ _ _ => true
  | .vsct _ _ _ _ => true
  | .fenceCore => true
  | .fenceCl => true
  | .fenceDie => true
  | .fenceSys => true
  | .tlbInv _ _ _ => true
  | .tlbSync => true
  | .dcWb _ _ => true
  | .dcInv _ _ => true
  | .dcWbinv _ _ => true
  | .icInv _ _ => true
  | .tNew _ _ => true
  | .tFree _ => true
  | .tLd _ _ => true
  | .tSt _ _ => true
  | .tGat _ _ _ => true
  | .tPhr _ _ _ => true
  | .tQ _ _ which => which.toNat ≤ 5
  | .tWiden _ _ _ => true
  | .mxLease => true
  | .mxFree _ => true
  | .mxCfg _ => true
  | .mxMma _ _ tile => tile.toNat ≤ 3
  | .mxSp _ _ tile => tile.toNat ≤ 3
  | .mxZero tile => tile.toNat ≤ 3
  | .mxLd _ tile => tile.toNat ≤ 3
  | .mxSt _ tile => tile.toNat ≤ 3
  | .bkAdd _ _ _ => true
  | .bkMul _ _ _ => true
  | .bkFma _ _ _ => true
  | .bkMax _ _ _ => true
  | .bkMin _ _ _ => true
  | .bkFill _ _ _ => true
  | .bkCvt _ _ _ => true
  | .bkSum _ _ _ => true
  | .bkOsm _ _ _ => true
  | .upOpen _ _ => true
  | .upEmit _ _ _ => true
  | .upEmitv _ _ _ => true
  | .upFlush _ _ => true
  | .upClose _ => true
  | .upSt _ _ which => which.toNat ≤ 5
  | .cp _ ctx _ => ctx.toNat ≤ 3
  | .cp2d _ ctx _ => ctx.toNat ≤ 3
  | .cpT _ ctx _ => ctx.toNat ≤ 3
  | .tagWaitAll _ => true
  | .tagWaitAny _ _ => true
  | .tagFfr _ _ => true
  | .tlRd _ _ kind => kind.toNat ≤ 4
  | .tlWait _ _ kind => kind.toNat ≤ 4
  | .amoAdd _ _ _ _ => true
  | .amoAnd _ _ _ _ => true
  | .amoOr _ _ _ _ => true
  | .amoXor _ _ _ _ => true
  | .amoMin _ _ _ _ => true
  | .amoMax _ _ _ _ => true
  | .amoMinu _ _ _ _ => true
  | .amoMaxu _ _ _ _ => true
  | .amoSwap _ _ _ _ => true
  | .amoCas _ _ _ _ => true
  | .barInit _ _ => true
  | .barArr _ => true
  | .barExp _ _ => true
  | .barWait _ _ => true
  | .monArm _ => true
  | .monWait _ _ => true
  | .monClr _ => true
  | .msgSend _ _ _ => true
  | .msgWait => true
  | .msgPop _ _ => true
  | .take _ _ => true
  | .done => true
  | .emit _ _ _ => true
  | .susp _ _ => true
  | .futInit _ => true
  | .futReg _ _ _ => true
  | .futRes _ _ => true
  | .futResP _ _ => true
  | .futRd _ _ => true
  | .futRdS _ _ => true
  | .gNotify _ _ _ => true
  | .gLaunch _ _ _ => true
  | .phLease _ _ _ => true
  | .phRun _ _ _ => true
  | .phFree _ => true
  | .tkArm _ _ e => e.toNat ≤ 8
  | .tkBud _ _ k => k.toNat ≤ 1
  | .tkCmt _ _ _ => true
  | .tkDraft _ _ => true
  | .tkConf _ _ _ => true
  | .tkNext _ _ => true
  | .tkSt _ _ which => which.toNat ≤ 31
  | .trap _ => true
  | .eret => true
  | .crRd _ n => crAssigned n.toNat
  | .crWr _ n => crAssigned n.toNat
  | .crSet _ n => crAssigned n.toNat
  | .crClr _ n => crAssigned n.toNat
  | .repart _ _ => true
  | .repartRcl _ _ => true
  | .repartStop _ _ => true
  | .repartRun _ _ => true
  | .halt => true
  | .brk => true
  | .ctrRd _ n => n.toNat ≤ 11
  | .ctrCfg _ n => (8 ≤ n.toNat && n.toNat ≤ 11)
  | .ctrClr _ => true
  | .causeRead _ => true
  | .loadReturn _ => true
  | .fetchReturn _ => true
  | .homeAccess _ => true
  | .fullEmptyArrival _ => true
  | .writeBack _ => true
  | .eviction _ _ => true
  | .monitorTimeout _ _ => true
  | .messageArrival _ => true
  | .handleCommandArrival _ => true
  | .handleCommandCompletion _ => true
  | .wideningConversion _ => true
  | .leaseGrant _ => true
  | .leaseWatchdogExpiry _ => true
  | .arrayCommandCompletion _ => true
  | .bankCommandPerformed _ => true
  | .pairArrival _ => true
  | .applicationEnd _ _ => true
  | .flushArrival _ => true
  | .closeArrival _ => true
  | .copyCompletion _ => true
  | .invalidationArrival _ => true
  | .invalidationAcknowledgement _ => true
  | .migrate _ => true
  | .release _ => true
  | .migrationCompletion _ => true
  | .launchCompletion _ => true
  | .waveDrain _ _ => true
  | .itemArrival _ => true
  | .stealRequest _ => true
  | .stealBackoffExpiry _ => true
  | .probeTimeout _ => true
  | .probeToken _ => true
  | .emergencyEntryRequest _ => true
  | .sealArrival _ => true
  | .resumeNotice _ => true
  | .phraseLeaseGrant _ => true
  | .phraseRunCompletion _ => true
  | .lexrelWrite _ => true
  | .save _ => true
  | .restore _ => true
  | .move _ => true
  | .unfwd _ => true
  | .preemptionCompletion _ => true
  | .debugHalt _ => true
  | .debugResume _ => true
  | .powerOnReset => true
  | .boot _ => true
  | .bootPortTimeout => true
  | .discoveryPacket _ => true
  | .imageDelivery _ => true
  | .imageAcknowledgement _ => true
  | .launch _ => true
  | .map _ => true
  | .copy _ => true
  | .query _ => true
  | .quote _ => true
  | .power _ => true
  | .undefinedLitarMessage _ => true
  | .nonLitarFrame _ => true
  | .priorityFlowControl _ => true
  | .scedyFlit _ => true
  | .linkLoss _ => true
  | .channelPowerEntry _ => true
  | .channelWake _ => true
  | .illegalInstruction => true
  | .rotationBoundary _ => true
  | .stealReply _ => true

/-- A well-formed instruction: one that no fault of row 3 of R36 refuses. -/
def Instr.wf (i : Instr) : Bool := i.uses.all Use.ok && i.immOk

/-- A C-class instruction: majors 0x00-0x1F (R19). Events have no word and count as neither. -/
def Instr.isC : Instr → Bool
  | .add .. => false
  | .sub .. => false
  | .and .. => false
  | .or .. => false
  | .xor .. => false
  | .andn .. => false
  | .shl .. => false
  | .shr .. => false
  | .sra .. => false
  | .rol .. => false
  | .min .. => false
  | .max .. => false
  | .minu .. => false
  | .maxu .. => false
  | .mul .. => false
  | .mulh .. => false
  | .mulhu .. => false
  | .div .. => false
  | .divu .. => false
  | .rem .. => false
  | .remu .. => false
  | .clz .. => false
  | .ctz .. => false
  | .popc .. => false
  | .sextB .. => false
  | .sextH .. => false
  | .sextW .. => false
  | .zextB .. => false
  | .zextH .. => false
  | .zextW .. => false
  | .cmpEq .. => false
  | .cmpNe .. => false
  | .cmpLt .. => false
  | .cmpGe .. => false
  | .cmpLtu .. => false
  | .cmpGeu .. => false
  | .sel .. => false
  | .addi .. => false
  | .andi .. => false
  | .ori .. => false
  | .xori .. => false
  | .movi .. => false
  | .movk .. => false
  | .fadd .. => false
  | .fsub .. => false
  | .fmul .. => false
  | .fmin .. => false
  | .fmax .. => false
  | .fdiv .. => false
  | .fsqrt .. => false
  | .fclass .. => false
  | .fcmpEq .. => false
  | .fcmpLt .. => false
  | .fcmpLe .. => false
  | .fcmpUn .. => false
  | .fsgnJ .. => false
  | .fsgnN .. => false
  | .fsgnX .. => false
  | .fcvtFI .. => false
  | .fcvtFIu .. => false
  | .fcvtIF .. => false
  | .fcvtIuF .. => false
  | .ffma .. => false
  | .vadd .. => false
  | .vsub .. => false
  | .vmul .. => false
  | .vmin .. => false
  | .vmax .. => false
  | .vdiv .. => false
  | .vsqrt .. => false
  | .vabs .. => false
  | .vexp2 .. => false
  | .vlog2 .. => false
  | .vrcp .. => false
  | .vrsq .. => false
  | .vneg .. => false
  | .vfma .. => false
  | .vfnma .. => false
  | .vaddI .. => false
  | .vsubI .. => false
  | .vmulI .. => false
  | .vand .. => false
  | .vor .. => false
  | .vxor .. => false
  | .vshl .. => false
  | .vshr .. => false
  | .vsra .. => false
  | .vminI .. => false
  | .vmaxI .. => false
  | .vminu .. => false
  | .vmaxu .. => false
  | .vandn .. => false
  | .vcmpEq .. => false
  | .vcmpLt .. => false
  | .vcmpLe .. => false
  | .vcmpUn .. => false
  | .vcmpEqI .. => false
  | .vcmpLtI .. => false
  | .vcmpLtu .. => false
  | .vsel .. => false
  | .vcvtUp .. => false
  | .vcvtDn .. => false
  | .vcvtDnSat .. => false
  | .vcvtDnSr .. => false
  | .vcvtDnSrSat .. => false
  | .vcvtDnRtz .. => false
  | .vperm .. => false
  | .vbcast .. => false
  | .vins .. => false
  | .vext .. => false
  | .vredAdd .. => false
  | .vredMax .. => false
  | .vredMin .. => false
  | .mand .. => false
  | .mor .. => false
  | .mnot .. => false
  | .mpopc .. => false
  | .vaddBf .. => false
  | .vmulBf .. => false
  | .vaddHf .. => false
  | .vmulHf .. => false
  | .vaddI16 .. => false
  | .vsubI16 .. => false
  | .vaddI8 .. => false
  | .vsubI8 .. => false
  | .j .. => true
  | .jl .. => true
  | .jlL .. => true
  | .bEq .. => true
  | .bNe .. => true
  | .bLt .. => true
  | .bGe .. => true
  | .bLtu .. => true
  | .bGeu .. => true
  | .bBset .. => true
  | .bBclr .. => true
  | .jr .. => true
  | .jrA .. => true
  | .jlr .. => true
  | .jlrA .. => true
  | .ldB .. => true
  | .ldH .. => true
  | .ldW .. => true
  | .ldD .. => true
  | .ldBu .. => true
  | .ldHu .. => true
  | .ldWu .. => true
  | .stB .. => true
  | .stH .. => true
  | .stW .. => true
  | .stD .. => true
  | .ldFe .. => true
  | .ldFf .. => true
  | .stEf .. => true
  | .stF .. => true
  | .ldw .. => true
  | .pf .. => true
  | .ipf .. => true
  | .vld .. => true
  | .vst .. => true
  | .vldw .. => true
  | .vstw .. => true
  | .vgat .. => true
  | .vsct .. => true
  | .fenceCore => true
  | .fenceCl => true
  | .fenceDie => true
  | .fenceSys => true
  | .tlbInv .. => true
  | .tlbSync => true
  | .dcWb .. => true
  | .dcInv .. => true
  | .dcWbinv .. => true
  | .icInv .. => true
  | .tNew .. => true
  | .tFree .. => true
  | .tLd .. => true
  | .tSt .. => true
  | .tGat .. => true
  | .tPhr .. => true
  | .tQ .. => true
  | .tWiden .. => true
  | .mxLease => true
  | .mxFree .. => true
  | .mxCfg .. => true
  | .mxMma .. => true
  | .mxSp .. => true
  | .mxZero .. => true
  | .mxLd .. => true
  | .mxSt .. => true
  | .bkAdd .. => true
  | .bkMul .. => true
  | .bkFma .. => true
  | .bkMax .. => true
  | .bkMin .. => true
  | .bkFill .. => true
  | .bkCvt .. => true
  | .bkSum .. => true
  | .bkOsm .. => true
  | .upOpen .. => true
  | .upEmit .. => true
  | .upEmitv .. => true
  | .upFlush .. => true
  | .upClose .. => true
  | .upSt .. => true
  | .cp .. => true
  | .cp2d .. => true
  | .cpT .. => true
  | .tagWaitAll .. => true
  | .tagWaitAny .. => true
  | .tagFfr .. => true
  | .tlRd .. => true
  | .tlWait .. => true
  | .amoAdd .. => true
  | .amoAnd .. => true
  | .amoOr .. => true
  | .amoXor .. => true
  | .amoMin .. => true
  | .amoMax .. => true
  | .amoMinu .. => true
  | .amoMaxu .. => true
  | .amoSwap .. => true
  | .amoCas .. => true
  | .barInit .. => true
  | .barArr .. => true
  | .barExp .. => true
  | .barWait .. => true
  | .monArm .. => true
  | .monWait .. => true
  | .monClr .. => true
  | .msgSend .. => true
  | .msgWait => true
  | .msgPop .. => true
  | .take .. => true
  | .done => true
  | .emit .. => true
  | .susp .. => true
  | .futInit .. => true
  | .futReg .. => true
  | .futRes .. => true
  | .futResP .. => true
  | .futRd .. => true
  | .futRdS .. => true
  | .gNotify .. => true
  | .gLaunch .. => true
  | .phLease .. => true
  | .phRun .. => true
  | .phFree .. => true
  | .tkArm .. => true
  | .tkBud .. => true
  | .tkCmt .. => true
  | .tkDraft .. => true
  | .tkConf .. => true
  | .tkNext .. => true
  | .tkSt .. => true
  | .trap .. => true
  | .eret => true
  | .crRd .. => true
  | .crWr .. => true
  | .crSet .. => true
  | .crClr .. => true
  | .repart .. => true
  | .repartRcl .. => true
  | .repartStop .. => true
  | .repartRun .. => true
  | .halt => true
  | .brk => true
  | .ctrRd .. => true
  | .ctrCfg .. => true
  | .ctrClr .. => true
  | .causeRead .. => false
  | .loadReturn .. => false
  | .fetchReturn .. => false
  | .homeAccess .. => false
  | .fullEmptyArrival .. => false
  | .writeBack .. => false
  | .eviction .. => false
  | .monitorTimeout .. => false
  | .messageArrival .. => false
  | .handleCommandArrival .. => false
  | .handleCommandCompletion .. => false
  | .wideningConversion .. => false
  | .leaseGrant .. => false
  | .leaseWatchdogExpiry .. => false
  | .arrayCommandCompletion .. => false
  | .bankCommandPerformed .. => false
  | .pairArrival .. => false
  | .applicationEnd .. => false
  | .flushArrival .. => false
  | .closeArrival .. => false
  | .copyCompletion .. => false
  | .invalidationArrival .. => false
  | .invalidationAcknowledgement .. => false
  | .migrate .. => false
  | .release .. => false
  | .migrationCompletion .. => false
  | .launchCompletion .. => false
  | .waveDrain .. => false
  | .itemArrival .. => false
  | .stealRequest .. => false
  | .stealBackoffExpiry .. => false
  | .probeTimeout .. => false
  | .probeToken .. => false
  | .emergencyEntryRequest .. => false
  | .sealArrival .. => false
  | .resumeNotice .. => false
  | .phraseLeaseGrant .. => false
  | .phraseRunCompletion .. => false
  | .lexrelWrite .. => false
  | .save .. => false
  | .restore .. => false
  | .move .. => false
  | .unfwd .. => false
  | .preemptionCompletion .. => false
  | .debugHalt .. => false
  | .debugResume .. => false
  | .powerOnReset => false
  | .boot .. => false
  | .bootPortTimeout => false
  | .discoveryPacket .. => false
  | .imageDelivery .. => false
  | .imageAcknowledgement .. => false
  | .launch .. => false
  | .map .. => false
  | .copy .. => false
  | .query .. => false
  | .quote .. => false
  | .power .. => false
  | .undefinedLitarMessage .. => false
  | .nonLitarFrame .. => false
  | .priorityFlowControl .. => false
  | .scedyFlit .. => false
  | .linkLoss .. => false
  | .channelPowerEntry .. => false
  | .channelWake .. => false
  | .illegalInstruction => false
  | .rotationBoundary .. => false
  | .stealReply .. => false

/-- A step that is no instruction: a row of the opcode table without a word. -/
def Instr.isEvent : Instr → Bool
  | .add .. => false
  | .sub .. => false
  | .and .. => false
  | .or .. => false
  | .xor .. => false
  | .andn .. => false
  | .shl .. => false
  | .shr .. => false
  | .sra .. => false
  | .rol .. => false
  | .min .. => false
  | .max .. => false
  | .minu .. => false
  | .maxu .. => false
  | .mul .. => false
  | .mulh .. => false
  | .mulhu .. => false
  | .div .. => false
  | .divu .. => false
  | .rem .. => false
  | .remu .. => false
  | .clz .. => false
  | .ctz .. => false
  | .popc .. => false
  | .sextB .. => false
  | .sextH .. => false
  | .sextW .. => false
  | .zextB .. => false
  | .zextH .. => false
  | .zextW .. => false
  | .cmpEq .. => false
  | .cmpNe .. => false
  | .cmpLt .. => false
  | .cmpGe .. => false
  | .cmpLtu .. => false
  | .cmpGeu .. => false
  | .sel .. => false
  | .addi .. => false
  | .andi .. => false
  | .ori .. => false
  | .xori .. => false
  | .movi .. => false
  | .movk .. => false
  | .fadd .. => false
  | .fsub .. => false
  | .fmul .. => false
  | .fmin .. => false
  | .fmax .. => false
  | .fdiv .. => false
  | .fsqrt .. => false
  | .fclass .. => false
  | .fcmpEq .. => false
  | .fcmpLt .. => false
  | .fcmpLe .. => false
  | .fcmpUn .. => false
  | .fsgnJ .. => false
  | .fsgnN .. => false
  | .fsgnX .. => false
  | .fcvtFI .. => false
  | .fcvtFIu .. => false
  | .fcvtIF .. => false
  | .fcvtIuF .. => false
  | .ffma .. => false
  | .vadd .. => false
  | .vsub .. => false
  | .vmul .. => false
  | .vmin .. => false
  | .vmax .. => false
  | .vdiv .. => false
  | .vsqrt .. => false
  | .vabs .. => false
  | .vexp2 .. => false
  | .vlog2 .. => false
  | .vrcp .. => false
  | .vrsq .. => false
  | .vneg .. => false
  | .vfma .. => false
  | .vfnma .. => false
  | .vaddI .. => false
  | .vsubI .. => false
  | .vmulI .. => false
  | .vand .. => false
  | .vor .. => false
  | .vxor .. => false
  | .vshl .. => false
  | .vshr .. => false
  | .vsra .. => false
  | .vminI .. => false
  | .vmaxI .. => false
  | .vminu .. => false
  | .vmaxu .. => false
  | .vandn .. => false
  | .vcmpEq .. => false
  | .vcmpLt .. => false
  | .vcmpLe .. => false
  | .vcmpUn .. => false
  | .vcmpEqI .. => false
  | .vcmpLtI .. => false
  | .vcmpLtu .. => false
  | .vsel .. => false
  | .vcvtUp .. => false
  | .vcvtDn .. => false
  | .vcvtDnSat .. => false
  | .vcvtDnSr .. => false
  | .vcvtDnSrSat .. => false
  | .vcvtDnRtz .. => false
  | .vperm .. => false
  | .vbcast .. => false
  | .vins .. => false
  | .vext .. => false
  | .vredAdd .. => false
  | .vredMax .. => false
  | .vredMin .. => false
  | .mand .. => false
  | .mor .. => false
  | .mnot .. => false
  | .mpopc .. => false
  | .vaddBf .. => false
  | .vmulBf .. => false
  | .vaddHf .. => false
  | .vmulHf .. => false
  | .vaddI16 .. => false
  | .vsubI16 .. => false
  | .vaddI8 .. => false
  | .vsubI8 .. => false
  | .j .. => false
  | .jl .. => false
  | .jlL .. => false
  | .bEq .. => false
  | .bNe .. => false
  | .bLt .. => false
  | .bGe .. => false
  | .bLtu .. => false
  | .bGeu .. => false
  | .bBset .. => false
  | .bBclr .. => false
  | .jr .. => false
  | .jrA .. => false
  | .jlr .. => false
  | .jlrA .. => false
  | .ldB .. => false
  | .ldH .. => false
  | .ldW .. => false
  | .ldD .. => false
  | .ldBu .. => false
  | .ldHu .. => false
  | .ldWu .. => false
  | .stB .. => false
  | .stH .. => false
  | .stW .. => false
  | .stD .. => false
  | .ldFe .. => false
  | .ldFf .. => false
  | .stEf .. => false
  | .stF .. => false
  | .ldw .. => false
  | .pf .. => false
  | .ipf .. => false
  | .vld .. => false
  | .vst .. => false
  | .vldw .. => false
  | .vstw .. => false
  | .vgat .. => false
  | .vsct .. => false
  | .fenceCore => false
  | .fenceCl => false
  | .fenceDie => false
  | .fenceSys => false
  | .tlbInv .. => false
  | .tlbSync => false
  | .dcWb .. => false
  | .dcInv .. => false
  | .dcWbinv .. => false
  | .icInv .. => false
  | .tNew .. => false
  | .tFree .. => false
  | .tLd .. => false
  | .tSt .. => false
  | .tGat .. => false
  | .tPhr .. => false
  | .tQ .. => false
  | .tWiden .. => false
  | .mxLease => false
  | .mxFree .. => false
  | .mxCfg .. => false
  | .mxMma .. => false
  | .mxSp .. => false
  | .mxZero .. => false
  | .mxLd .. => false
  | .mxSt .. => false
  | .bkAdd .. => false
  | .bkMul .. => false
  | .bkFma .. => false
  | .bkMax .. => false
  | .bkMin .. => false
  | .bkFill .. => false
  | .bkCvt .. => false
  | .bkSum .. => false
  | .bkOsm .. => false
  | .upOpen .. => false
  | .upEmit .. => false
  | .upEmitv .. => false
  | .upFlush .. => false
  | .upClose .. => false
  | .upSt .. => false
  | .cp .. => false
  | .cp2d .. => false
  | .cpT .. => false
  | .tagWaitAll .. => false
  | .tagWaitAny .. => false
  | .tagFfr .. => false
  | .tlRd .. => false
  | .tlWait .. => false
  | .amoAdd .. => false
  | .amoAnd .. => false
  | .amoOr .. => false
  | .amoXor .. => false
  | .amoMin .. => false
  | .amoMax .. => false
  | .amoMinu .. => false
  | .amoMaxu .. => false
  | .amoSwap .. => false
  | .amoCas .. => false
  | .barInit .. => false
  | .barArr .. => false
  | .barExp .. => false
  | .barWait .. => false
  | .monArm .. => false
  | .monWait .. => false
  | .monClr .. => false
  | .msgSend .. => false
  | .msgWait => false
  | .msgPop .. => false
  | .take .. => false
  | .done => false
  | .emit .. => false
  | .susp .. => false
  | .futInit .. => false
  | .futReg .. => false
  | .futRes .. => false
  | .futResP .. => false
  | .futRd .. => false
  | .futRdS .. => false
  | .gNotify .. => false
  | .gLaunch .. => false
  | .phLease .. => false
  | .phRun .. => false
  | .phFree .. => false
  | .tkArm .. => false
  | .tkBud .. => false
  | .tkCmt .. => false
  | .tkDraft .. => false
  | .tkConf .. => false
  | .tkNext .. => false
  | .tkSt .. => false
  | .trap .. => false
  | .eret => false
  | .crRd .. => false
  | .crWr .. => false
  | .crSet .. => false
  | .crClr .. => false
  | .repart .. => false
  | .repartRcl .. => false
  | .repartStop .. => false
  | .repartRun .. => false
  | .halt => false
  | .brk => false
  | .ctrRd .. => false
  | .ctrCfg .. => false
  | .ctrClr .. => false
  | .causeRead .. => true
  | .loadReturn .. => true
  | .fetchReturn .. => true
  | .homeAccess .. => true
  | .fullEmptyArrival .. => true
  | .writeBack .. => true
  | .eviction .. => true
  | .monitorTimeout .. => true
  | .messageArrival .. => true
  | .handleCommandArrival .. => true
  | .handleCommandCompletion .. => true
  | .wideningConversion .. => true
  | .leaseGrant .. => true
  | .leaseWatchdogExpiry .. => true
  | .arrayCommandCompletion .. => true
  | .bankCommandPerformed .. => true
  | .pairArrival .. => true
  | .applicationEnd .. => true
  | .flushArrival .. => true
  | .closeArrival .. => true
  | .copyCompletion .. => true
  | .invalidationArrival .. => true
  | .invalidationAcknowledgement .. => true
  | .migrate .. => true
  | .release .. => true
  | .migrationCompletion .. => true
  | .launchCompletion .. => true
  | .waveDrain .. => true
  | .itemArrival .. => true
  | .stealRequest .. => true
  | .stealBackoffExpiry .. => true
  | .probeTimeout .. => true
  | .probeToken .. => true
  | .emergencyEntryRequest .. => true
  | .sealArrival .. => true
  | .resumeNotice .. => true
  | .phraseLeaseGrant .. => true
  | .phraseRunCompletion .. => true
  | .lexrelWrite .. => true
  | .save .. => true
  | .restore .. => true
  | .move .. => true
  | .unfwd .. => true
  | .preemptionCompletion .. => true
  | .debugHalt .. => true
  | .debugResume .. => true
  | .powerOnReset => true
  | .boot .. => true
  | .bootPortTimeout => true
  | .discoveryPacket .. => true
  | .imageDelivery .. => true
  | .imageAcknowledgement .. => true
  | .launch .. => true
  | .map .. => true
  | .copy .. => true
  | .query .. => true
  | .quote .. => true
  | .power .. => true
  | .undefinedLitarMessage .. => true
  | .nonLitarFrame .. => true
  | .priorityFlowControl .. => true
  | .scedyFlit .. => true
  | .linkLoss .. => true
  | .channelPowerEntry .. => true
  | .channelWake .. => true
  | .illegalInstruction => true
  | .rotationBoundary .. => true
  | .stealReply .. => true

end Sys2Proof
end

