-- ==== Sys2Proof/Decode.lean ====
section
/-! DEFINITION. The decoder, total on any bytes and refusing by name, and the encoder, both written from the
formats of R26 and the maps of R33 and R34. -/

set_option Elab.async false

namespace Sys2Proof

/-- Why a word is no instruction; each raises cause 0x01 (R21, R28, R29, R35). -/
inductive DecodeError where
  /-- A major opcode the maps do not assign, or EXT standing alone. -/
  | reservedMajor
  /-- A function, variant, cond or op value the maps do not assign. -/
  | reservedFunction
  /-- A field the instruction does not use is not zero. -/
  | unusedField
  /-- A reserved operand code or an immediate that is not defined. -/
  | badOperand
  /-- P = 1 on an A-class word. -/
  | badP
  /-- jl.l without P = 1 or without its EXT word. -/
  | badExt
  /-- Fewer bytes than the word needs. -/
  | short
deriving DecidableEq, Repr

/-- The seven fields that every format is cut into: P, W, the major opcode [29:24] and the 6-bit groups
[23:18], [17:12], [11:6] and [5:0] (R26). -/
structure Fields where
  p : Bool
  w : Bool
  major : BitVec 6
  a : BitVec 6
  b : BitVec 6
  c : BitVec 6
  fn : BitVec 6
deriving DecidableEq, Repr

/-- Cuts a word into its fields (R18, R26). -/
def splitWord (x : BitVec 32) : Fields :=
  ⟨x.getLsbD 31, x.getLsbD 30, x.extractLsb' 24 6, x.extractLsb' 18 6, x.extractLsb' 12 6, x.extractLsb' 6 6,
    x.extractLsb' 0 6⟩

/-- Puts the fields of a word together (R18, R26). -/
def joinWord (f : Fields) : BitVec 32 :=
  BitVec.ofBool f.p ++ BitVec.ofBool f.w ++ f.major ++ f.a ++ f.b ++ f.c ++ f.fn

/-- The variant fn[2:0] of a masked vector form (R32). -/
def Fields.variant (f : Fields) : BitVec 3 := f.fn.extractLsb' 0 3

/-- The mask fn[5:3] of a masked vector form (R32). -/
def Fields.mask (f : Fields) : BitVec 3 := f.fn.extractLsb' 3 3

/-- imm12 of AI (R26). -/
def Fields.imm12 (f : Fields) : BitVec 12 := f.c ++ f.fn

/-- imm16 of AK (R26). -/
def Fields.imm16 (f : Fields) : BitVec 16 := f.b.extractLsb' 0 4 ++ f.c ++ f.fn

/-- hw of AK (R26). -/
def Fields.hw (f : Fields) : BitVec 2 := f.b.extractLsb' 4 2

/-- op of CM (R26). -/
def Fields.op (f : Fields) : BitVec 3 := f.c.extractLsb' 3 3

/-- off9 of CM and CB (R26). -/
def Fields.off9 (f : Fields) : BitVec 9 := f.c.extractLsb' 0 3 ++ f.fn

/-- cond of CB (R26). -/
def Fields.cond (f : Fields) : BitVec 3 := f.a.extractLsb' 3 3

/-- a of CB (R26). -/
def Fields.cbA (f : Fields) : BitVec 6 := f.a.extractLsb' 0 3 ++ f.b.extractLsb' 3 3

/-- b of CB (R26). -/
def Fields.cbB (f : Fields) : BitVec 6 := f.b.extractLsb' 0 3 ++ f.c.extractLsb' 3 3

/-- off24 of CJ, and off_hi of EXT (R26). -/
def Fields.off24 (f : Fields) : BitVec 24 := f.a ++ f.b ++ f.c ++ f.fn

/-- The 12-bit number in b : c (R28). -/
def Fields.number (f : Fields) : BitVec 12 := f.b ++ f.c

/-- The instruction i when the fields it does not use are zero (R28). -/
def unusedZero (unused : List (BitVec 6)) (i : Instr) : Except DecodeError Instr :=
  if unused.all (· == 0) then .ok i else .error .unusedField


/-- Major 0x01 (R33). -/
def decode01 (f : Fields) : Except DecodeError Instr :=
  .ok (.j f.off24)

/-- Major 0x02 (R33). -/
def decode02 (f : Fields) : Except DecodeError Instr :=
  .ok (.jl f.off24)

/-- Major 0x03 (R33). -/
def decode03 (f : Fields) : Except DecodeError Instr :=
  match f.cond.toNat with
  | 0 => .ok (.bEq f.cbA f.cbB f.off9)
  | 1 => .ok (.bNe f.cbA f.cbB f.off9)
  | 2 => .ok (.bLt f.cbA f.cbB f.off9)
  | 3 => .ok (.bGe f.cbA f.cbB f.off9)
  | 4 => .ok (.bLtu f.cbA f.cbB f.off9)
  | 5 => .ok (.bGeu f.cbA f.cbB f.off9)
  | 6 => .ok (.bBset f.cbA f.cbB f.off9)
  | 7 => .ok (.bBclr f.cbA f.cbB f.off9)
  | _ => .error .reservedFunction

/-- Major 0x04 (R33). -/
def decode04 (f : Fields) : Except DecodeError Instr :=
  match f.fn.toNat with
  | 0 =>
    match f.c.toNat with
    | 0 => unusedZero [f.b] (.jr f.a)
    | 1 => unusedZero [f.b] (.jrA f.a)
    | _ => .error .badOperand
  | 1 =>
    match f.c.toNat with
    | 0 => unusedZero [f.b] (.jlr f.a)
    | 1 => unusedZero [f.b] (.jlrA f.a)
    | _ => .error .badOperand
  | _ => .error .reservedFunction

/-- Major 0x05 (R33). -/
def decode05 (f : Fields) : Except DecodeError Instr :=
  match f.op.toNat with
  | 0 => .ok (.ldB f.a f.b f.off9)
  | 1 => .ok (.ldH f.a f.b f.off9)
  | 2 => .ok (.ldW f.a f.b f.off9)
  | 3 => .ok (.ldD f.a f.b f.off9)
  | 4 => .ok (.ldBu f.a f.b f.off9)
  | 5 => .ok (.ldHu f.a f.b f.off9)
  | 6 => .ok (.ldWu f.a f.b f.off9)
  | _ => .error .reservedFunction

/-- Major 0x06 (R33). -/
def decode06 (f : Fields) : Except DecodeError Instr :=
  match f.op.toNat with
  | 0 => .ok (.stB f.a f.b f.off9)
  | 1 => .ok (.stH f.a f.b f.off9)
  | 2 => .ok (.stW f.a f.b f.off9)
  | 3 => .ok (.stD f.a f.b f.off9)
  | _ => .error .reservedFunction

/-- Major 0x07 (R33). -/
def decode07 (f : Fields) : Except DecodeError Instr :=
  match f.op.toNat with
  | 0 => .ok (.ldFe f.a f.b f.off9)
  | 1 => .ok (.ldFf f.a f.b f.off9)
  | 2 => .ok (.stEf f.a f.b f.off9)
  | 3 => .ok (.stF f.a f.b f.off9)
  | 4 => .ok (.ldw f.a f.b f.off9)
  | 5 => .ok (.pf f.a f.b f.off9)
  | 6 => .ok (.ipf f.a f.b f.off9)
  | _ => .error .reservedFunction

/-- Major 0x08 (R33). -/
def decode08 (f : Fields) : Except DecodeError Instr :=
  match f.op.toNat with
  | 0 => .ok (.vld f.a f.b f.off9)
  | 1 => .ok (.vst f.a f.b f.off9)
  | 2 => .ok (.vldw f.a f.b f.off9)
  | 3 => .ok (.vstw f.a f.b f.off9)
  | _ => .error .reservedFunction

/-- Major 0x09 (R33). -/
def decode09 (f : Fields) : Except DecodeError Instr :=
  match f.variant.toNat with
  | 0 => .ok (.vgat f.a f.b f.c f.mask)
  | 1 => .ok (.vsct f.a f.b f.c f.mask)
  | _ => .error .reservedFunction

/-- Major 0x0A (R33). -/
def decode0A (f : Fields) : Except DecodeError Instr :=
  match f.fn.toNat with
  | 0 => unusedZero [f.a, f.b, f.c] (.fenceCore)
  | 1 => unusedZero [f.a, f.b, f.c] (.fenceCl)
  | 2 => unusedZero [f.a, f.b, f.c] (.fenceDie)
  | 3 => unusedZero [f.a, f.b, f.c] (.fenceSys)
  | _ => .error .reservedFunction

/-- Major 0x0B (R33). -/
def decode0B (f : Fields) : Except DecodeError Instr :=
  match f.fn.toNat with
  | 0 => .ok (.tlbInv f.a f.b f.c)
  | 1 => unusedZero [f.a, f.b, f.c] (.tlbSync)
  | 2 => unusedZero [f.c] (.dcWb f.a f.b)
  | 3 => unusedZero [f.c] (.dcInv f.a f.b)
  | 4 => unusedZero [f.c] (.dcWbinv f.a f.b)
  | 5 => unusedZero [f.c] (.icInv f.a f.b)
  | _ => .error .reservedFunction

/-- Major 0x0C (R33). -/
def decode0C (f : Fields) : Except DecodeError Instr :=
  match f.fn.toNat with
  | 0 => unusedZero [f.c] (.tNew f.a f.b)
  | 1 => unusedZero [f.b, f.c] (.tFree f.a)
  | 2 => unusedZero [f.c] (.tLd f.a f.b)
  | 3 => unusedZero [f.c] (.tSt f.a f.b)
  | 4 => .ok (.tGat f.a f.b f.c)
  | 5 => .ok (.tPhr f.a f.b f.c)
  | 6 => .ok (.tQ f.a f.b f.c)
  | 7 => .ok (.tWiden f.a f.b f.c)
  | _ => .error .reservedFunction

/-- Major 0x0D (R33). -/
def decode0D (f : Fields) : Except DecodeError Instr :=
  match f.fn.toNat with
  | 0 => unusedZero [f.a, f.b, f.c] (.mxLease)
  | 1 => unusedZero [f.b, f.c] (.mxFree f.a)
  | 2 => unusedZero [f.b, f.c] (.mxCfg f.a)
  | 3 => .ok (.mxMma f.a f.b f.c)
  | 4 => .ok (.mxSp f.a f.b f.c)
  | 5 => unusedZero [f.a, f.b] (.mxZero f.c)
  | 6 => unusedZero [f.b] (.mxLd f.a f.c)
  | 7 => unusedZero [f.b] (.mxSt f.a f.c)
  | _ => .error .reservedFunction

/-- Major 0x0E (R33). -/
def decode0E (f : Fields) : Except DecodeError Instr :=
  match f.fn.toNat with
  | 0 => .ok (.bkAdd f.a f.b f.c)
  | 1 => .ok (.bkMul f.a f.b f.c)
  | 2 => .ok (.bkFma f.a f.b f.c)
  | 3 => .ok (.bkMax f.a f.b f.c)
  | 4 => .ok (.bkMin f.a f.b f.c)
  | 5 => .ok (.bkFill f.a f.b f.c)
  | 6 => .ok (.bkCvt f.a f.b f.c)
  | 7 => .ok (.bkSum f.a f.b f.c)
  | 8 => .ok (.bkOsm f.a f.b f.c)
  | _ => .error .reservedFunction

/-- Major 0x0F (R33). -/
def decode0F (f : Fields) : Except DecodeError Instr :=
  match f.fn.toNat with
  | 0 => unusedZero [f.c] (.upOpen f.a f.b)
  | 1 => .ok (.upEmit f.a f.b f.c)
  | 2 => .ok (.upEmitv f.a f.b f.c)
  | 3 => unusedZero [f.c] (.upFlush f.a f.b)
  | 4 => unusedZero [f.b, f.c] (.upClose f.a)
  | 5 => .ok (.upSt f.a f.b f.c)
  | _ => .error .reservedFunction

/-- Major 0x10 (R33). -/
def decode10 (f : Fields) : Except DecodeError Instr :=
  match f.fn.toNat with
  | 0 => .ok (.cp f.a f.b f.c)
  | 1 => .ok (.cp2d f.a f.b f.c)
  | 2 => .ok (.cpT f.a f.b f.c)
  | 3 => unusedZero [f.b, f.c] (.tagWaitAll f.a)
  | 4 => unusedZero [f.c] (.tagWaitAny f.a f.b)
  | 5 => unusedZero [f.c] (.tagFfr f.a f.b)
  | _ => .error .reservedFunction

/-- Major 0x11 (R33). -/
def decode11 (f : Fields) : Except DecodeError Instr :=
  match f.fn.toNat with
  | 0 => .ok (.tlRd f.a f.b f.c)
  | 1 => .ok (.tlWait f.a f.b f.c)
  | _ => .error .reservedFunction

/-- Major 0x12 (R33). -/
def decode12 (f : Fields) : Except DecodeError Instr :=
  if f.fn.getLsbD 5 then .error .reservedFunction else
  match (f.fn.extractLsb' 0 4).toNat with
  | 0 => .ok (.amoAdd (f.fn.getLsbD 4) f.a f.b f.c)
  | 1 => .ok (.amoAnd (f.fn.getLsbD 4) f.a f.b f.c)
  | 2 => .ok (.amoOr (f.fn.getLsbD 4) f.a f.b f.c)
  | 3 => .ok (.amoXor (f.fn.getLsbD 4) f.a f.b f.c)
  | 4 => .ok (.amoMin (f.fn.getLsbD 4) f.a f.b f.c)
  | 5 => .ok (.amoMax (f.fn.getLsbD 4) f.a f.b f.c)
  | 6 => .ok (.amoMinu (f.fn.getLsbD 4) f.a f.b f.c)
  | 7 => .ok (.amoMaxu (f.fn.getLsbD 4) f.a f.b f.c)
  | 8 => .ok (.amoSwap (f.fn.getLsbD 4) f.a f.b f.c)
  | 9 => .ok (.amoCas (f.fn.getLsbD 4) f.a f.b f.c)
  | _ => .error .reservedFunction

/-- Major 0x13 (R33). -/
def decode13 (f : Fields) : Except DecodeError Instr :=
  match f.fn.toNat with
  | 0 => unusedZero [f.c] (.barInit f.a f.b)
  | 1 => unusedZero [f.b, f.c] (.barArr f.a)
  | 2 => unusedZero [f.c] (.barExp f.a f.b)
  | 3 => unusedZero [f.c] (.barWait f.a f.b)
  | 4 => unusedZero [f.b, f.c] (.monArm f.a)
  | 5 => unusedZero [f.c] (.monWait f.a f.b)
  | 6 => unusedZero [f.b, f.c] (.monClr f.a)
  | 7 => .ok (.msgSend f.a f.b f.c)
  | 8 => unusedZero [f.a, f.b, f.c] (.msgWait)
  | 9 => unusedZero [f.c] (.msgPop f.a f.b)
  | _ => .error .reservedFunction

/-- Major 0x14 (R33). -/
noncomputable def decode14 (f : Fields) : Except DecodeError Instr :=
  match f.fn.toNat with
  | 0 => unusedZero [f.c] (.take f.a f.b)
  | 1 => unusedZero [f.a, f.b, f.c] (.done)
  | 2 => .ok (.emit f.a f.b f.c)
  | 3 => unusedZero [f.c] (.susp f.a f.b)
  | 4 => unusedZero [f.b, f.c] (.futInit f.a)
  | 5 => .ok (.futReg f.a f.b f.c)
  | 6 =>
    match f.c.toNat with
    | 0 => .ok (.futRes f.a f.b)
    | 1 => .ok (.futResP f.a f.b)
    | _ => .error .badOperand
  | 7 =>
    match f.c.toNat with
    | 0 => .ok (.futRd f.a f.b)
    | 1 => .ok (.futRdS f.a f.b)
    | _ => .error .badOperand
  | 8 => .ok (.gNotify f.a f.b f.c)
  | 9 => .ok (.gLaunch f.a f.b f.c)
  | _ => .error .reservedFunction

/-- Major 0x15 (R33). -/
noncomputable def decode15 (f : Fields) : Except DecodeError Instr :=
  match f.fn.toNat with
  | 0 => .ok (.phLease f.a f.b f.c)
  | 1 => .ok (.phRun f.a f.b f.c)
  | 2 => unusedZero [f.b, f.c] (.phFree f.a)
  | _ => .error .reservedFunction

/-- Major 0x16 (R33). -/
noncomputable def decode16 (f : Fields) : Except DecodeError Instr :=
  match f.fn.toNat with
  | 0 => .ok (.tkArm f.a f.b f.c)
  | 1 => .ok (.tkBud f.a f.b f.c)
  | 2 => .ok (.tkCmt f.a f.b f.c)
  | 3 => unusedZero [f.c] (.tkDraft f.a f.b)
  | 4 => .ok (.tkConf f.a f.b f.c)
  | 5 => unusedZero [f.c] (.tkNext f.a f.b)
  | 6 => .ok (.tkSt f.a f.b f.c)
  | _ => .error .reservedFunction

/-- Major 0x17 (R33). -/
noncomputable def decode17 (f : Fields) : Except DecodeError Instr :=
  match f.fn.toNat with
  | 0 => unusedZero [f.a] (.trap f.number)
  | 1 => unusedZero [f.a, f.b, f.c] (.eret)
  | 2 => .ok (.crRd f.a f.number)
  | 3 => .ok (.crWr f.a f.number)
  | 4 => .ok (.crSet f.a f.number)
  | 5 => .ok (.crClr f.a f.number)
  | 6 =>
    match f.c.toNat with
    | 0 => .ok (.repart f.a f.b)
    | 1 => .ok (.repartRcl f.a f.b)
    | 2 => .ok (.repartStop f.a f.b)
    | 3 => .ok (.repartRun f.a f.b)
    | _ => .error .badOperand
  | 7 => unusedZero [f.a, f.b, f.c] (.halt)
  | 8 => unusedZero [f.a, f.b, f.c] (.brk)
  | 9 => unusedZero [f.b] (.ctrRd f.a f.c)
  | 10 => unusedZero [f.b] (.ctrCfg f.a f.c)
  | 11 => unusedZero [f.b, f.c] (.ctrClr f.a)
  | _ => .error .reservedFunction

/-- Major 0x20 (R34). -/
def decode20 (f : Fields) : Except DecodeError Instr :=
  match f.fn.toNat with
  | 0 => .ok (.add f.a f.b f.c)
  | 1 => .ok (.sub f.a f.b f.c)
  | 2 => .ok (.and f.a f.b f.c)
  | 3 => .ok (.or f.a f.b f.c)
  | 4 => .ok (.xor f.a f.b f.c)
  | 5 => .ok (.andn f.a f.b f.c)
  | 6 => .ok (.shl f.a f.b f.c)
  | 7 => .ok (.shr f.a f.b f.c)
  | 8 => .ok (.sra f.a f.b f.c)
  | 9 => .ok (.rol f.a f.b f.c)
  | 10 => .ok (.min f.a f.b f.c)
  | 11 => .ok (.max f.a f.b f.c)
  | 12 => .ok (.minu f.a f.b f.c)
  | 13 => .ok (.maxu f.a f.b f.c)
  | 14 => .ok (.mul f.a f.b f.c)
  | 15 => .ok (.mulh f.a f.b f.c)
  | 16 => .ok (.mulhu f.a f.b f.c)
  | 17 => .ok (.div f.a f.b f.c)
  | 18 => .ok (.divu f.a f.b f.c)
  | 19 => .ok (.rem f.a f.b f.c)
  | 20 => .ok (.remu f.a f.b f.c)
  | 21 => unusedZero [f.c] (.clz f.a f.b)
  | 22 => unusedZero [f.c] (.ctz f.a f.b)
  | 23 => unusedZero [f.c] (.popc f.a f.b)
  | 24 => unusedZero [f.c] (.sextB f.a f.b)
  | 25 => unusedZero [f.c] (.sextH f.a f.b)
  | 26 => unusedZero [f.c] (.sextW f.a f.b)
  | 27 => unusedZero [f.c] (.zextB f.a f.b)
  | 28 => unusedZero [f.c] (.zextH f.a f.b)
  | 29 => unusedZero [f.c] (.zextW f.a f.b)
  | 30 => .ok (.cmpEq f.a f.b f.c)
  | 31 => .ok (.cmpNe f.a f.b f.c)
  | 32 => .ok (.cmpLt f.a f.b f.c)
  | 33 => .ok (.cmpGe f.a f.b f.c)
  | 34 => .ok (.cmpLtu f.a f.b f.c)
  | 35 => .ok (.cmpGeu f.a f.b f.c)
  | _ => .error .reservedFunction

/-- Major 0x21 (R34). -/
def decode21 (f : Fields) : Except DecodeError Instr :=
  .ok (.sel f.a f.b f.c f.fn)

/-- Major 0x22 (R34). -/
def decode22 (f : Fields) : Except DecodeError Instr :=
  .ok (.addi f.a f.b f.imm12)

/-- Major 0x23 (R34). -/
def decode23 (f : Fields) : Except DecodeError Instr :=
  .ok (.andi f.a f.b f.imm12)

/-- Major 0x24 (R34). -/
def decode24 (f : Fields) : Except DecodeError Instr :=
  .ok (.ori f.a f.b f.imm12)

/-- Major 0x25 (R34). -/
def decode25 (f : Fields) : Except DecodeError Instr :=
  .ok (.xori f.a f.b f.imm12)

/-- Major 0x26 (R34). -/
def decode26 (f : Fields) : Except DecodeError Instr :=
  .ok (.movi f.a f.hw f.imm16)

/-- Major 0x27 (R34). -/
def decode27 (f : Fields) : Except DecodeError Instr :=
  .ok (.movk f.a f.hw f.imm16)

/-- Major 0x28 (R34). -/
def decode28 (f : Fields) : Except DecodeError Instr :=
  match f.fn.toNat with
  | 0 => .ok (.fadd f.a f.b f.c)
  | 1 => .ok (.fsub f.a f.b f.c)
  | 2 => .ok (.fmul f.a f.b f.c)
  | 3 => .ok (.fmin f.a f.b f.c)
  | 4 => .ok (.fmax f.a f.b f.c)
  | 5 => .ok (.fdiv f.a f.b f.c)
  | 6 => unusedZero [f.c] (.fsqrt f.a f.b)
  | 7 => unusedZero [f.c] (.fclass f.a f.b)
  | 8 => .ok (.fcmpEq f.a f.b f.c)
  | 9 => .ok (.fcmpLt f.a f.b f.c)
  | 10 => .ok (.fcmpLe f.a f.b f.c)
  | 11 => .ok (.fcmpUn f.a f.b f.c)
  | 12 => .ok (.fsgnJ f.a f.b f.c)
  | 13 => .ok (.fsgnN f.a f.b f.c)
  | 14 => .ok (.fsgnX f.a f.b f.c)
  | 16 => unusedZero [f.c] (.fcvtFI f.a f.b)
  | 17 => unusedZero [f.c] (.fcvtFIu f.a f.b)
  | 18 => unusedZero [f.c] (.fcvtIF f.a f.b)
  | 19 => unusedZero [f.c] (.fcvtIuF f.a f.b)
  | _ => .error .reservedFunction

/-- Major 0x29 (R34). -/
def decode29 (f : Fields) : Except DecodeError Instr :=
  .ok (.ffma f.a f.b f.c f.fn)

/-- Major 0x2A (R34). -/
def decode2A (f : Fields) : Except DecodeError Instr :=
  match f.variant.toNat with
  | 0 => .ok (.vadd f.a f.b f.c f.mask)
  | 1 => .ok (.vsub f.a f.b f.c f.mask)
  | 2 => .ok (.vmul f.a f.b f.c f.mask)
  | 3 => .ok (.vmin f.a f.b f.c f.mask)
  | 4 => .ok (.vmax f.a f.b f.c f.mask)
  | 5 => .ok (.vdiv f.a f.b f.c f.mask)
  | 6 => unusedZero [f.c] (.vsqrt f.a f.b f.mask)
  | 7 => unusedZero [f.c] (.vabs f.a f.b f.mask)
  | _ => .error .reservedFunction

/-- Major 0x2B (R34). -/
def decode2B (f : Fields) : Except DecodeError Instr :=
  match f.variant.toNat with
  | 0 => unusedZero [f.c] (.vexp2 f.a f.b f.mask)
  | 1 => unusedZero [f.c] (.vlog2 f.a f.b f.mask)
  | 2 => unusedZero [f.c] (.vrcp f.a f.b f.mask)
  | 3 => unusedZero [f.c] (.vrsq f.a f.b f.mask)
  | 4 => unusedZero [f.c] (.vneg f.a f.b f.mask)
  | _ => .error .reservedFunction

/-- Major 0x2C (R34). -/
def decode2C (f : Fields) : Except DecodeError Instr :=
  .ok (.vfma f.a f.b f.c f.fn)

/-- Major 0x2D (R34). -/
def decode2D (f : Fields) : Except DecodeError Instr :=
  .ok (.vfnma f.a f.b f.c f.fn)

/-- Major 0x2E (R34). -/
def decode2E (f : Fields) : Except DecodeError Instr :=
  match f.variant.toNat with
  | 0 => .ok (.vaddI f.a f.b f.c f.mask)
  | 1 => .ok (.vsubI f.a f.b f.c f.mask)
  | 2 => .ok (.vmulI f.a f.b f.c f.mask)
  | 3 => .ok (.vand f.a f.b f.c f.mask)
  | 4 => .ok (.vor f.a f.b f.c f.mask)
  | 5 => .ok (.vxor f.a f.b f.c f.mask)
  | 6 => .ok (.vshl f.a f.b f.c f.mask)
  | 7 => .ok (.vshr f.a f.b f.c f.mask)
  | _ => .error .reservedFunction

/-- Major 0x2F (R34). -/
def decode2F (f : Fields) : Except DecodeError Instr :=
  match f.variant.toNat with
  | 0 => .ok (.vsra f.a f.b f.c f.mask)
  | 1 => .ok (.vminI f.a f.b f.c f.mask)
  | 2 => .ok (.vmaxI f.a f.b f.c f.mask)
  | 3 => .ok (.vminu f.a f.b f.c f.mask)
  | 4 => .ok (.vmaxu f.a f.b f.c f.mask)
  | 5 => .ok (.vandn f.a f.b f.c f.mask)
  | _ => .error .reservedFunction

/-- Major 0x30 (R34). -/
def decode30 (f : Fields) : Except DecodeError Instr :=
  match f.variant.toNat with
  | 0 => .ok (.vcmpEq f.a f.b f.c f.mask)
  | 1 => .ok (.vcmpLt f.a f.b f.c f.mask)
  | 2 => .ok (.vcmpLe f.a f.b f.c f.mask)
  | 3 => .ok (.vcmpUn f.a f.b f.c f.mask)
  | 4 => .ok (.vcmpEqI f.a f.b f.c f.mask)
  | 5 => .ok (.vcmpLtI f.a f.b f.c f.mask)
  | 6 => .ok (.vcmpLtu f.a f.b f.c f.mask)
  | _ => .error .reservedFunction

/-- Major 0x31 (R34). -/
def decode31 (f : Fields) : Except DecodeError Instr :=
  .ok (.vsel f.a f.b f.c f.fn)

/-- Major 0x32 (R34). -/
def decode32 (f : Fields) : Except DecodeError Instr :=
  match f.variant.toNat with
  | 0 => .ok (.vcvtUp f.a f.b f.c f.mask)
  | 1 => .ok (.vcvtDn f.a f.b f.c f.mask)
  | 2 => .ok (.vcvtDnSat f.a f.b f.c f.mask)
  | 3 => .ok (.vcvtDnSr f.a f.b f.c f.mask)
  | 4 => .ok (.vcvtDnSrSat f.a f.b f.c f.mask)
  | 5 => .ok (.vcvtDnRtz f.a f.b f.c f.mask)
  | _ => .error .reservedFunction

/-- Major 0x33 (R34). -/
def decode33 (f : Fields) : Except DecodeError Instr :=
  match f.variant.toNat with
  | 0 => .ok (.vperm f.a f.b f.c f.mask)
  | 1 => unusedZero [f.c] (.vbcast f.a f.b f.mask)
  | 2 => .ok (.vins f.a f.b f.c f.mask)
  | 3 => if f.mask = 0 then .ok (.vext f.a f.b f.c) else .error .unusedField
  | _ => .error .reservedFunction

/-- Major 0x34 (R34). -/
def decode34 (f : Fields) : Except DecodeError Instr :=
  match f.variant.toNat with
  | 0 => unusedZero [f.c] (.vredAdd f.a f.b f.mask)
  | 1 => unusedZero [f.c] (.vredMax f.a f.b f.mask)
  | 2 => unusedZero [f.c] (.vredMin f.a f.b f.mask)
  | 4 => if f.mask = 0 then .ok (.mand f.a f.b f.c) else .error .unusedField
  | 5 => if f.mask = 0 then .ok (.mor f.a f.b f.c) else .error .unusedField
  | 6 => if f.mask = 0 then unusedZero [f.c] (.mnot f.a f.b) else .error .unusedField
  | 7 => if f.mask = 0 then unusedZero [f.c] (.mpopc f.a f.b) else .error .unusedField
  | _ => .error .reservedFunction

/-- Major 0x35 (R34). -/
def decode35 (f : Fields) : Except DecodeError Instr :=
  match f.variant.toNat with
  | 0 => .ok (.vaddBf f.a f.b f.c f.mask)
  | 1 => .ok (.vmulBf f.a f.b f.c f.mask)
  | 2 => .ok (.vaddHf f.a f.b f.c f.mask)
  | 3 => .ok (.vmulHf f.a f.b f.c f.mask)
  | 4 => .ok (.vaddI16 f.a f.b f.c f.mask)
  | 5 => .ok (.vsubI16 f.a f.b f.c f.mask)
  | 6 => .ok (.vaddI8 f.a f.b f.c f.mask)
  | 7 => .ok (.vsubI8 f.a f.b f.c f.mask)
  | _ => .error .reservedFunction

/-- The instruction of one word's fields, unused fields checked and operand codes not yet (R33, R34). -/
noncomputable def decodeMajor (f : Fields) : Except DecodeError Instr :=
  match f.major.toNat with
  | 1 => decode01 f
  | 2 => decode02 f
  | 3 => decode03 f
  | 4 => decode04 f
  | 5 => decode05 f
  | 6 => decode06 f
  | 7 => decode07 f
  | 8 => decode08 f
  | 9 => decode09 f
  | 10 => decode0A f
  | 11 => decode0B f
  | 12 => decode0C f
  | 13 => decode0D f
  | 14 => decode0E f
  | 15 => decode0F f
  | 16 => decode10 f
  | 17 => decode11 f
  | 18 => decode12 f
  | 19 => decode13 f
  | 20 => decode14 f
  | 21 => decode15 f
  | 22 => decode16 f
  | 23 => decode17 f
  | 32 => decode20 f
  | 33 => decode21 f
  | 34 => decode22 f
  | 35 => decode23 f
  | 36 => decode24 f
  | 37 => decode25 f
  | 38 => decode26 f
  | 39 => decode27 f
  | 40 => decode28 f
  | 41 => decode29 f
  | 42 => decode2A f
  | 43 => decode2B f
  | 44 => decode2C f
  | 45 => decode2D f
  | 46 => decode2E f
  | 47 => decode2F f
  | 48 => decode30 f
  | 49 => decode31 f
  | 50 => decode32 f
  | 51 => decode33 f
  | 52 => decode34 f
  | 53 => decode35 f
  | _ => .error .reservedMajor

/-- The instruction when every operand code and immediate is one that exists (R28, R29). -/
def checkWf (i : Instr) : Except DecodeError Instr := if i.wf then .ok i else .error .badOperand

/-- Decodes one word that is no part of a jl.l (R18-R36). -/
noncomputable def decodeFields (f : Fields) : Except DecodeError InstrWord :=
  if f.p && 32 ≤ f.major.toNat then .error .badP else
  match decodeMajor f with
  | .error e => .error e
  | .ok i =>
    match checkWf i with
    | .error e => .error e
    | .ok i => .ok ⟨f.p, f.w, i⟩

/-- Decodes one word that is no part of a jl.l. -/
noncomputable def decodeWord (x : BitVec 32) : Except DecodeError InstrWord := decodeFields (splitWord x)

/-- The word is a jl.l's first (R27, R33). -/
def isJlL (x : BitVec 32) : Bool := x.extractLsb' 24 6 == 0x18

/-- The word is EXT (R19). -/
def isExt (x : BitVec 32) : Bool := x.extractLsb' 24 6 == 0x3F

/-- The word is A-class (R19). -/
def isAClass (x : BitVec 32) : Bool := x.getLsbD 29

/-- Decodes the two words of a jl.l (R21, R27). -/
def decodeJlL (x y : BitVec 32) : Except DecodeError InstrWord :=
  let f := splitWord x
  let g := splitWord y
  if f.p && g.major == 0x3F && !g.p && !g.w then .ok ⟨true, f.w, .jlL (g.off24 ++ f.off24)⟩ else .error .badExt

/-- The word that four bytes hold, the first lowest (R5, R18). -/
def wordOfBytes (b0 b1 b2 b3 : BitVec 8) : BitVec 32 := b3 ++ b2 ++ b1 ++ b0

/-- The four bytes of a word, lowest first (R5, R18). -/
def bytesOfWord (x : BitVec 32) : List (BitVec 8) :=
  [x.extractLsb' 0 8, x.extractLsb' 8 8, x.extractLsb' 16 8, x.extractLsb' 24 8]

/-- Decodes the instruction at the head of a byte string, and returns the bytes after it. -/
noncomputable def decodeBytes : List (BitVec 8) → Except DecodeError (InstrWord × List (BitVec 8))
  | b0 :: b1 :: b2 :: b3 :: r =>
    let x := wordOfBytes b0 b1 b2 b3
    if isJlL x then
      match r with
      | c0 :: c1 :: c2 :: c3 :: r' =>
        match decodeJlL x (wordOfBytes c0 c1 c2 c3) with
        | .ok i => .ok (i, r')
        | .error e => .error e
      | _ => .error .short
    else
      match decodeWord x with
      | .ok i => .ok (i, r)
      | .error e => .error e
  | _ => .error .short

/-- The bytes of an instruction whose bits are w, the first word lowest, padded with zeros to the longest
instruction, eight bytes. -/
def tableBytes (nbits w : Nat) : List (BitVec 8) :=
  bytesOfWord (BitVec.ofNat 32 (w % 2 ^ nbits)) ++ bytesOfWord (BitVec.ofNat 32 ((w % 2 ^ nbits) / 2 ^ 32))

/-- The instruction that the decoder reads from an instruction whose bits are w. -/
noncomputable def decodeTableWord (nbits w : Nat) : Option Instr :=
  match decodeBytes (tableBytes nbits w) with
  | .ok (i, _) => some i.instr
  | .error _ => none


/-- The fields of the instruction's word, P and W clear (R26, R33, R34); an event has no word, and jl.l has
two (`encode`). -/
def encodeFields : Instr → Fields
  | .add d a b => ⟨false, false, 0x20, d, a, b, 0x00⟩
  | .sub d a b => ⟨false, false, 0x20, d, a, b, 0x01⟩
  | .and d a b => ⟨false, false, 0x20, d, a, b, 0x02⟩
  | .or d a b => ⟨false, false, 0x20, d, a, b, 0x03⟩
  | .xor d a b => ⟨false, false, 0x20, d, a, b, 0x04⟩
  | .andn d a b => ⟨false, false, 0x20, d, a, b, 0x05⟩
  | .shl d a b => ⟨false, false, 0x20, d, a, b, 0x06⟩
  | .shr d a b => ⟨false, false, 0x20, d, a, b, 0x07⟩
  | .sra d a b => ⟨false, false, 0x20, d, a, b, 0x08⟩
  | .rol d a b => ⟨false, false, 0x20, d, a, b, 0x09⟩
  | .min d a b => ⟨false, false, 0x20, d, a, b, 0x0A⟩
  | .max d a b => ⟨false, false, 0x20, d, a, b, 0x0B⟩
  | .minu d a b => ⟨false, false, 0x20, d, a, b, 0x0C⟩
  | .maxu d a b => ⟨false, false, 0x20, d, a, b, 0x0D⟩
  | .mul d a b => ⟨false, false, 0x20, d, a, b, 0x0E⟩
  | .mulh d a b => ⟨false, false, 0x20, d, a, b, 0x0F⟩
  | .mulhu d a b => ⟨false, false, 0x20, d, a, b, 0x10⟩
  | .div d a b => ⟨false, false, 0x20, d, a, b, 0x11⟩
  | .divu d a b => ⟨false, false, 0x20, d, a, b, 0x12⟩
  | .rem d a b => ⟨false, false, 0x20, d, a, b, 0x13⟩
  | .remu d a b => ⟨false, false, 0x20, d, a, b, 0x14⟩
  | .clz d a => ⟨false, false, 0x20, d, a, 0, 0x15⟩
  | .ctz d a => ⟨false, false, 0x20, d, a, 0, 0x16⟩
  | .popc d a => ⟨false, false, 0x20, d, a, 0, 0x17⟩
  | .sextB d a => ⟨false, false, 0x20, d, a, 0, 0x18⟩
  | .sextH d a => ⟨false, false, 0x20, d, a, 0, 0x19⟩
  | .sextW d a => ⟨false, false, 0x20, d, a, 0, 0x1A⟩
  | .zextB d a => ⟨false, false, 0x20, d, a, 0, 0x1B⟩
  | .zextH d a => ⟨false, false, 0x20, d, a, 0, 0x1C⟩
  | .zextW d a => ⟨false, false, 0x20, d, a, 0, 0x1D⟩
  | .cmpEq d a b => ⟨false, false, 0x20, d, a, b, 0x1E⟩
  | .cmpNe d a b => ⟨false, false, 0x20, d, a, b, 0x1F⟩
  | .cmpLt d a b => ⟨false, false, 0x20, d, a, b, 0x20⟩
  | .cmpGe d a b => ⟨false, false, 0x20, d, a, b, 0x21⟩
  | .cmpLtu d a b => ⟨false, false, 0x20, d, a, b, 0x22⟩
  | .cmpGeu d a b => ⟨false, false, 0x20, d, a, b, 0x23⟩
  | .sel d a b c => ⟨false, false, 0x21, d, a, b, c⟩
  | .addi d a imm => ⟨false, false, 0x22, d, a, (imm.extractLsb' 6 6), (imm.extractLsb' 0 6)⟩
  | .andi d a imm => ⟨false, false, 0x23, d, a, (imm.extractLsb' 6 6), (imm.extractLsb' 0 6)⟩
  | .ori d a imm => ⟨false, false, 0x24, d, a, (imm.extractLsb' 6 6), (imm.extractLsb' 0 6)⟩
  | .xori d a imm => ⟨false, false, 0x25, d, a, (imm.extractLsb' 6 6), (imm.extractLsb' 0 6)⟩
  | .movi d hw imm => ⟨false, false, 0x26, d, (hw ++ imm.extractLsb' 12 4), (imm.extractLsb' 6 6), (imm.extractLsb' 0 6)⟩
  | .movk d hw imm => ⟨false, false, 0x27, d, (hw ++ imm.extractLsb' 12 4), (imm.extractLsb' 6 6), (imm.extractLsb' 0 6)⟩
  | .fadd d a b => ⟨false, false, 0x28, d, a, b, 0x00⟩
  | .fsub d a b => ⟨false, false, 0x28, d, a, b, 0x01⟩
  | .fmul d a b => ⟨false, false, 0x28, d, a, b, 0x02⟩
  | .fmin d a b => ⟨false, false, 0x28, d, a, b, 0x03⟩
  | .fmax d a b => ⟨false, false, 0x28, d, a, b, 0x04⟩
  | .fdiv d a b => ⟨false, false, 0x28, d, a, b, 0x05⟩
  | .fsqrt d a => ⟨false, false, 0x28, d, a, 0, 0x06⟩
  | .fclass d a => ⟨false, false, 0x28, d, a, 0, 0x07⟩
  | .fcmpEq d a b => ⟨false, false, 0x28, d, a, b, 0x08⟩
  | .fcmpLt d a b => ⟨false, false, 0x28, d, a, b, 0x09⟩
  | .fcmpLe d a b => ⟨false, false, 0x28, d, a, b, 0x0A⟩
  | .fcmpUn d a b => ⟨false, false, 0x28, d, a, b, 0x0B⟩
  | .fsgnJ d a b => ⟨false, false, 0x28, d, a, b, 0x0C⟩
  | .fsgnN d a b => ⟨false, false, 0x28, d, a, b, 0x0D⟩
  | .fsgnX d a b => ⟨false, false, 0x28, d, a, b, 0x0E⟩
  | .fcvtFI d a => ⟨false, false, 0x28, d, a, 0, 0x10⟩
  | .fcvtFIu d a => ⟨false, false, 0x28, d, a, 0, 0x11⟩
  | .fcvtIF d a => ⟨false, false, 0x28, d, a, 0, 0x12⟩
  | .fcvtIuF d a => ⟨false, false, 0x28, d, a, 0, 0x13⟩
  | .ffma d a b c => ⟨false, false, 0x29, d, a, b, c⟩
  | .vadd d a b m => ⟨false, false, 0x2A, d, a, b, (m ++ (0 : BitVec 3))⟩
  | .vsub d a b m => ⟨false, false, 0x2A, d, a, b, (m ++ (1 : BitVec 3))⟩
  | .vmul d a b m => ⟨false, false, 0x2A, d, a, b, (m ++ (2 : BitVec 3))⟩
  | .vmin d a b m => ⟨false, false, 0x2A, d, a, b, (m ++ (3 : BitVec 3))⟩
  | .vmax d a b m => ⟨false, false, 0x2A, d, a, b, (m ++ (4 : BitVec 3))⟩
  | .vdiv d a b m => ⟨false, false, 0x2A, d, a, b, (m ++ (5 : BitVec 3))⟩
  | .vsqrt d a m => ⟨false, false, 0x2A, d, a, 0, (m ++ (6 : BitVec 3))⟩
  | .vabs d a m => ⟨false, false, 0x2A, d, a, 0, (m ++ (7 : BitVec 3))⟩
  | .vexp2 d a m => ⟨false, false, 0x2B, d, a, 0, (m ++ (0 : BitVec 3))⟩
  | .vlog2 d a m => ⟨false, false, 0x2B, d, a, 0, (m ++ (1 : BitVec 3))⟩
  | .vrcp d a m => ⟨false, false, 0x2B, d, a, 0, (m ++ (2 : BitVec 3))⟩
  | .vrsq d a m => ⟨false, false, 0x2B, d, a, 0, (m ++ (3 : BitVec 3))⟩
  | .vneg d a m => ⟨false, false, 0x2B, d, a, 0, (m ++ (4 : BitVec 3))⟩
  | .vfma d a b c => ⟨false, false, 0x2C, d, a, b, c⟩
  | .vfnma d a b c => ⟨false, false, 0x2D, d, a, b, c⟩
  | .vaddI d a b m => ⟨false, false, 0x2E, d, a, b, (m ++ (0 : BitVec 3))⟩
  | .vsubI d a b m => ⟨false, false, 0x2E, d, a, b, (m ++ (1 : BitVec 3))⟩
  | .vmulI d a b m => ⟨false, false, 0x2E, d, a, b, (m ++ (2 : BitVec 3))⟩
  | .vand d a b m => ⟨false, false, 0x2E, d, a, b, (m ++ (3 : BitVec 3))⟩
  | .vor d a b m => ⟨false, false, 0x2E, d, a, b, (m ++ (4 : BitVec 3))⟩
  | .vxor d a b m => ⟨false, false, 0x2E, d, a, b, (m ++ (5 : BitVec 3))⟩
  | .vshl d a b m => ⟨false, false, 0x2E, d, a, b, (m ++ (6 : BitVec 3))⟩
  | .vshr d a b m => ⟨false, false, 0x2E, d, a, b, (m ++ (7 : BitVec 3))⟩
  | .vsra d a b m => ⟨false, false, 0x2F, d, a, b, (m ++ (0 : BitVec 3))⟩
  | .vminI d a b m => ⟨false, false, 0x2F, d, a, b, (m ++ (1 : BitVec 3))⟩
  | .vmaxI d a b m => ⟨false, false, 0x2F, d, a, b, (m ++ (2 : BitVec 3))⟩
  | .vminu d a b m => ⟨false, false, 0x2F, d, a, b, (m ++ (3 : BitVec 3))⟩
  | .vmaxu d a b m => ⟨false, false, 0x2F, d, a, b, (m ++ (4 : BitVec 3))⟩
  | .vandn d a b m => ⟨false, false, 0x2F, d, a, b, (m ++ (5 : BitVec 3))⟩
  | .vcmpEq d a b m => ⟨false, false, 0x30, d, a, b, (m ++ (0 : BitVec 3))⟩
  | .vcmpLt d a b m => ⟨false, false, 0x30, d, a, b, (m ++ (1 : BitVec 3))⟩
  | .vcmpLe d a b m => ⟨false, false, 0x30, d, a, b, (m ++ (2 : BitVec 3))⟩
  | .vcmpUn d a b m => ⟨false, false, 0x30, d, a, b, (m ++ (3 : BitVec 3))⟩
  | .vcmpEqI d a b m => ⟨false, false, 0x30, d, a, b, (m ++ (4 : BitVec 3))⟩
  | .vcmpLtI d a b m => ⟨false, false, 0x30, d, a, b, (m ++ (5 : BitVec 3))⟩
  | .vcmpLtu d a b m => ⟨false, false, 0x30, d, a, b, (m ++ (6 : BitVec 3))⟩
  | .vsel d a b c => ⟨false, false, 0x31, d, a, b, c⟩
  | .vcvtUp d a f m => ⟨false, false, 0x32, d, a, f, (m ++ (0 : BitVec 3))⟩
  | .vcvtDn d a f m => ⟨false, false, 0x32, d, a, f, (m ++ (1 : BitVec 3))⟩
  | .vcvtDnSat d a f m => ⟨false, false, 0x32, d, a, f, (m ++ (2 : BitVec 3))⟩
  | .vcvtDnSr d a f m => ⟨false, false, 0x32, d, a, f, (m ++ (3 : BitVec 3))⟩
  | .vcvtDnSrSat d a f m => ⟨false, false, 0x32, d, a, f, (m ++ (4 : BitVec 3))⟩
  | .vcvtDnRtz d a f m => ⟨false, false, 0x32, d, a, f, (m ++ (5 : BitVec 3))⟩
  | .vperm d a b m => ⟨false, false, 0x33, d, a, b, (m ++ (0 : BitVec 3))⟩
  | .vbcast d a m => ⟨false, false, 0x33, d, a, 0, (m ++ (1 : BitVec 3))⟩
  | .vins d a n m => ⟨false, false, 0x33, d, a, n, (m ++ (2 : BitVec 3))⟩
  | .vext d a n => ⟨false, false, 0x33, d, a, n, 0x03⟩
  | .vredAdd d a m => ⟨false, false, 0x34, d, a, 0, (m ++ (0 : BitVec 3))⟩
  | .vredMax d a m => ⟨false, false, 0x34, d, a, 0, (m ++ (1 : BitVec 3))⟩
  | .vredMin d a m => ⟨false, false, 0x34, d, a, 0, (m ++ (2 : BitVec 3))⟩
  | .mand d a b => ⟨false, false, 0x34, d, a, b, 0x04⟩
  | .mor d a b => ⟨false, false, 0x34, d, a, b, 0x05⟩
  | .mnot d a => ⟨false, false, 0x34, d, a, 0, 0x06⟩
  | .mpopc d a => ⟨false, false, 0x34, d, a, 0, 0x07⟩
  | .vaddBf d a b m => ⟨false, false, 0x35, d, a, b, (m ++ (0 : BitVec 3))⟩
  | .vmulBf d a b m => ⟨false, false, 0x35, d, a, b, (m ++ (1 : BitVec 3))⟩
  | .vaddHf d a b m => ⟨false, false, 0x35, d, a, b, (m ++ (2 : BitVec 3))⟩
  | .vmulHf d a b m => ⟨false, false, 0x35, d, a, b, (m ++ (3 : BitVec 3))⟩
  | .vaddI16 d a b m => ⟨false, false, 0x35, d, a, b, (m ++ (4 : BitVec 3))⟩
  | .vsubI16 d a b m => ⟨false, false, 0x35, d, a, b, (m ++ (5 : BitVec 3))⟩
  | .vaddI8 d a b m => ⟨false, false, 0x35, d, a, b, (m ++ (6 : BitVec 3))⟩
  | .vsubI8 d a b m => ⟨false, false, 0x35, d, a, b, (m ++ (7 : BitVec 3))⟩
  | .j off => ⟨false, false, 0x01, (off.extractLsb' 18 6), (off.extractLsb' 12 6), (off.extractLsb' 6 6), (off.extractLsb' 0 6)⟩
  | .jl off => ⟨false, false, 0x02, (off.extractLsb' 18 6), (off.extractLsb' 12 6), (off.extractLsb' 6 6), (off.extractLsb' 0 6)⟩
  | .jlL off => ⟨false, false, 0x18, off.extractLsb' 18 6, off.extractLsb' 12 6, off.extractLsb' 6 6, off.extractLsb' 0 6⟩
  | .bEq a b off => ⟨false, false, 0x03, ((0 : BitVec 3) ++ a.extractLsb' 3 3), (a.extractLsb' 0 3 ++ b.extractLsb' 3 3), (b.extractLsb' 0 3 ++ off.extractLsb' 6 3), (off.extractLsb' 0 6)⟩
  | .bNe a b off => ⟨false, false, 0x03, ((1 : BitVec 3) ++ a.extractLsb' 3 3), (a.extractLsb' 0 3 ++ b.extractLsb' 3 3), (b.extractLsb' 0 3 ++ off.extractLsb' 6 3), (off.extractLsb' 0 6)⟩
  | .bLt a b off => ⟨false, false, 0x03, ((2 : BitVec 3) ++ a.extractLsb' 3 3), (a.extractLsb' 0 3 ++ b.extractLsb' 3 3), (b.extractLsb' 0 3 ++ off.extractLsb' 6 3), (off.extractLsb' 0 6)⟩
  | .bGe a b off => ⟨false, false, 0x03, ((3 : BitVec 3) ++ a.extractLsb' 3 3), (a.extractLsb' 0 3 ++ b.extractLsb' 3 3), (b.extractLsb' 0 3 ++ off.extractLsb' 6 3), (off.extractLsb' 0 6)⟩
  | .bLtu a b off => ⟨false, false, 0x03, ((4 : BitVec 3) ++ a.extractLsb' 3 3), (a.extractLsb' 0 3 ++ b.extractLsb' 3 3), (b.extractLsb' 0 3 ++ off.extractLsb' 6 3), (off.extractLsb' 0 6)⟩
  | .bGeu a b off => ⟨false, false, 0x03, ((5 : BitVec 3) ++ a.extractLsb' 3 3), (a.extractLsb' 0 3 ++ b.extractLsb' 3 3), (b.extractLsb' 0 3 ++ off.extractLsb' 6 3), (off.extractLsb' 0 6)⟩
  | .bBset a bit off => ⟨false, false, 0x03, ((6 : BitVec 3) ++ a.extractLsb' 3 3), (a.extractLsb' 0 3 ++ bit.extractLsb' 3 3), (bit.extractLsb' 0 3 ++ off.extractLsb' 6 3), (off.extractLsb' 0 6)⟩
  | .bBclr a bit off => ⟨false, false, 0x03, ((7 : BitVec 3) ++ a.extractLsb' 3 3), (a.extractLsb' 0 3 ++ bit.extractLsb' 3 3), (bit.extractLsb' 0 3 ++ off.extractLsb' 6 3), (off.extractLsb' 0 6)⟩
  | .jr a => ⟨false, false, 0x04, a, 0, 0, 0x00⟩
  | .jrA a => ⟨false, false, 0x04, a, 0, 1, 0x00⟩
  | .jlr a => ⟨false, false, 0x04, a, 0, 0, 0x01⟩
  | .jlrA a => ⟨false, false, 0x04, a, 0, 1, 0x01⟩
  | .ldB t base off => ⟨false, false, 0x05, t, base, ((0 : BitVec 3) ++ off.extractLsb' 6 3), (off.extractLsb' 0 6)⟩
  | .ldH t base off => ⟨false, false, 0x05, t, base, ((1 : BitVec 3) ++ off.extractLsb' 6 3), (off.extractLsb' 0 6)⟩
  | .ldW t base off => ⟨false, false, 0x05, t, base, ((2 : BitVec 3) ++ off.extractLsb' 6 3), (off.extractLsb' 0 6)⟩
  | .ldD t base off => ⟨false, false, 0x05, t, base, ((3 : BitVec 3) ++ off.extractLsb' 6 3), (off.extractLsb' 0 6)⟩
  | .ldBu t base off => ⟨false, false, 0x05, t, base, ((4 : BitVec 3) ++ off.extractLsb' 6 3), (off.extractLsb' 0 6)⟩
  | .ldHu t base off => ⟨false, false, 0x05, t, base, ((5 : BitVec 3) ++ off.extractLsb' 6 3), (off.extractLsb' 0 6)⟩
  | .ldWu t base off => ⟨false, false, 0x05, t, base, ((6 : BitVec 3) ++ off.extractLsb' 6 3), (off.extractLsb' 0 6)⟩
  | .stB t base off => ⟨false, false, 0x06, t, base, ((0 : BitVec 3) ++ off.extractLsb' 6 3), (off.extractLsb' 0 6)⟩
  | .stH t base off => ⟨false, false, 0x06, t, base, ((1 : BitVec 3) ++ off.extractLsb' 6 3), (off.extractLsb' 0 6)⟩
  | .stW t base off => ⟨false, false, 0x06, t, base, ((2 : BitVec 3) ++ off.extractLsb' 6 3), (off.extractLsb' 0 6)⟩
  | .stD t base off => ⟨false, false, 0x06, t, base, ((3 : BitVec 3) ++ off.extractLsb' 6 3), (off.extractLsb' 0 6)⟩
  | .ldFe t base off => ⟨false, false, 0x07, t, base, ((0 : BitVec 3) ++ off.extractLsb' 6 3), (off.extractLsb' 0 6)⟩
  | .ldFf t base off => ⟨false, false, 0x07, t, base, ((1 : BitVec 3) ++ off.extractLsb' 6 3), (off.extractLsb' 0 6)⟩
  | .stEf t base off => ⟨false, false, 0x07, t, base, ((2 : BitVec 3) ++ off.extractLsb' 6 3), (off.extractLsb' 0 6)⟩
  | .stF t base off => ⟨false, false, 0x07, t, base, ((3 : BitVec 3) ++ off.extractLsb' 6 3), (off.extractLsb' 0 6)⟩
  | .ldw t base off => ⟨false, false, 0x07, t, base, ((4 : BitVec 3) ++ off.extractLsb' 6 3), (off.extractLsb' 0 6)⟩
  | .pf lvl base off => ⟨false, false, 0x07, lvl, base, ((5 : BitVec 3) ++ off.extractLsb' 6 3), (off.extractLsb' 0 6)⟩
  | .ipf lvl base off => ⟨false, false, 0x07, lvl, base, ((6 : BitVec 3) ++ off.extractLsb' 6 3), (off.extractLsb' 0 6)⟩
  | .vld t base off => ⟨false, false, 0x08, t, base, ((0 : BitVec 3) ++ off.extractLsb' 6 3), (off.extractLsb' 0 6)⟩
  | .vst t base off => ⟨false, false, 0x08, t, base, ((1 : BitVec 3) ++ off.extractLsb' 6 3), (off.extractLsb' 0 6)⟩
  | .vldw t base off => ⟨false, false, 0x08, t, base, ((2 : BitVec 3) ++ off.extractLsb' 6 3), (off.extractLsb' 0 6)⟩
  | .vstw t base off => ⟨false, false, 0x08, t, base, ((3 : BitVec 3) ++ off.extractLsb' 6 3), (off.extractLsb' 0 6)⟩
  | .vgat a b c m => ⟨false, false, 0x09, a, b, c, (m ++ (0 : BitVec 3))⟩
  | .vsct a b c m => ⟨false, false, 0x09, a, b, c, (m ++ (1 : BitVec 3))⟩
  | .fenceCore => ⟨false, false, 0x0A, 0, 0, 0, 0x00⟩
  | .fenceCl => ⟨false, false, 0x0A, 0, 0, 0, 0x01⟩
  | .fenceDie => ⟨false, false, 0x0A, 0, 0, 0, 0x02⟩
  | .fenceSys => ⟨false, false, 0x0A, 0, 0, 0, 0x03⟩
  | .tlbInv a b c => ⟨false, false, 0x0B, a, b, c, 0x00⟩
  | .tlbSync => ⟨false, false, 0x0B, 0, 0, 0, 0x01⟩
  | .dcWb a b => ⟨false, false, 0x0B, a, b, 0, 0x02⟩
  | .dcInv a b => ⟨false, false, 0x0B, a, b, 0, 0x03⟩
  | .dcWbinv a b => ⟨false, false, 0x0B, a, b, 0, 0x04⟩
  | .icInv a b => ⟨false, false, 0x0B, a, b, 0, 0x05⟩
  | .tNew a b => ⟨false, false, 0x0C, a, b, 0, 0x00⟩
  | .tFree a => ⟨false, false, 0x0C, a, 0, 0, 0x01⟩
  | .tLd a b => ⟨false, false, 0x0C, a, b, 0, 0x02⟩
  | .tSt a b => ⟨false, false, 0x0C, a, b, 0, 0x03⟩
  | .tGat a b c => ⟨false, false, 0x0C, a, b, c, 0x04⟩
  | .tPhr a b c => ⟨false, false, 0x0C, a, b, c, 0x05⟩
  | .tQ a b which => ⟨false, false, 0x0C, a, b, which, 0x06⟩
  | .tWiden a b c => ⟨false, false, 0x0C, a, b, c, 0x07⟩
  | .mxLease => ⟨false, false, 0x0D, 0, 0, 0, 0x00⟩
  | .mxFree a => ⟨false, false, 0x0D, a, 0, 0, 0x01⟩
  | .mxCfg a => ⟨false, false, 0x0D, a, 0, 0, 0x02⟩
  | .mxMma a b tile => ⟨false, false, 0x0D, a, b, tile, 0x03⟩
  | .mxSp a b tile => ⟨false, false, 0x0D, a, b, tile, 0x04⟩
  | .mxZero tile => ⟨false, false, 0x0D, 0, 0, tile, 0x05⟩
  | .mxLd a tile => ⟨false, false, 0x0D, a, 0, tile, 0x06⟩
  | .mxSt a tile => ⟨false, false, 0x0D, a, 0, tile, 0x07⟩
  | .bkAdd a b c => ⟨false, false, 0x0E, a, b, c, 0x00⟩
  | .bkMul a b c => ⟨false, false, 0x0E, a, b, c, 0x01⟩
  | .bkFma a b c => ⟨false, false, 0x0E, a, b, c, 0x02⟩
  | .bkMax a b c => ⟨false, false, 0x0E, a, b, c, 0x03⟩
  | .bkMin a b c => ⟨false, false, 0x0E, a, b, c, 0x04⟩
  | .bkFill a b c => ⟨false, false, 0x0E, a, b, c, 0x05⟩
  | .bkCvt a b c => ⟨false, false, 0x0E, a, b, c, 0x06⟩
  | .bkSum a b c => ⟨false, false, 0x0E, a, b, c, 0x07⟩
  | .bkOsm a b c => ⟨false, false, 0x0E, a, b, c, 0x08⟩
  | .upOpen a b => ⟨false, false, 0x0F, a, b, 0, 0x00⟩
  | .upEmit a b c => ⟨false, false, 0x0F, a, b, c, 0x01⟩
  | .upEmitv a b c => ⟨false, false, 0x0F, a, b, c, 0x02⟩
  | .upFlush a b => ⟨false, false, 0x0F, a, b, 0, 0x03⟩
  | .upClose a => ⟨false, false, 0x0F, a, 0, 0, 0x04⟩
  | .upSt a b which => ⟨false, false, 0x0F, a, b, which, 0x05⟩
  | .cp a ctx tag => ⟨false, false, 0x10, a, ctx, tag, 0x00⟩
  | .cp2d a ctx tag => ⟨false, false, 0x10, a, ctx, tag, 0x01⟩
  | .cpT a ctx tag => ⟨false, false, 0x10, a, ctx, tag, 0x02⟩
  | .tagWaitAll a => ⟨false, false, 0x10, a, 0, 0, 0x03⟩
  | .tagWaitAny a b => ⟨false, false, 0x10, a, b, 0, 0x04⟩
  | .tagFfr a b => ⟨false, false, 0x10, a, b, 0, 0x05⟩
  | .tlRd a b kind => ⟨false, false, 0x11, a, b, kind, 0x00⟩
  | .tlWait a b kind => ⟨false, false, 0x11, a, b, kind, 0x01⟩
  | .amoAdd w a b c => ⟨false, false, 0x12, a, b, c, ((0 : BitVec 1) ++ BitVec.ofBool w ++ (0 : BitVec 4))⟩
  | .amoAnd w a b c => ⟨false, false, 0x12, a, b, c, ((0 : BitVec 1) ++ BitVec.ofBool w ++ (1 : BitVec 4))⟩
  | .amoOr w a b c => ⟨false, false, 0x12, a, b, c, ((0 : BitVec 1) ++ BitVec.ofBool w ++ (2 : BitVec 4))⟩
  | .amoXor w a b c => ⟨false, false, 0x12, a, b, c, ((0 : BitVec 1) ++ BitVec.ofBool w ++ (3 : BitVec 4))⟩
  | .amoMin w a b c => ⟨false, false, 0x12, a, b, c, ((0 : BitVec 1) ++ BitVec.ofBool w ++ (4 : BitVec 4))⟩
  | .amoMax w a b c => ⟨false, false, 0x12, a, b, c, ((0 : BitVec 1) ++ BitVec.ofBool w ++ (5 : BitVec 4))⟩
  | .amoMinu w a b c => ⟨false, false, 0x12, a, b, c, ((0 : BitVec 1) ++ BitVec.ofBool w ++ (6 : BitVec 4))⟩
  | .amoMaxu w a b c => ⟨false, false, 0x12, a, b, c, ((0 : BitVec 1) ++ BitVec.ofBool w ++ (7 : BitVec 4))⟩
  | .amoSwap w a b c => ⟨false, false, 0x12, a, b, c, ((0 : BitVec 1) ++ BitVec.ofBool w ++ (8 : BitVec 4))⟩
  | .amoCas w a b c => ⟨false, false, 0x12, a, b, c, ((0 : BitVec 1) ++ BitVec.ofBool w ++ (9 : BitVec 4))⟩
  | .barInit a b => ⟨false, false, 0x13, a, b, 0, 0x00⟩
  | .barArr a => ⟨false, false, 0x13, a, 0, 0, 0x01⟩
  | .barExp a b => ⟨false, false, 0x13, a, b, 0, 0x02⟩
  | .barWait a b => ⟨false, false, 0x13, a, b, 0, 0x03⟩
  | .monArm a => ⟨false, false, 0x13, a, 0, 0, 0x04⟩
  | .monWait a b => ⟨false, false, 0x13, a, b, 0, 0x05⟩
  | .monClr a => ⟨false, false, 0x13, a, 0, 0, 0x06⟩
  | .msgSend a b c => ⟨false, false, 0x13, a, b, c, 0x07⟩
  | .msgWait => ⟨false, false, 0x13, 0, 0, 0, 0x08⟩
  | .msgPop a b => ⟨false, false, 0x13, a, b, 0, 0x09⟩
  | .take a b => ⟨false, false, 0x14, a, b, 0, 0x00⟩
  | .done => ⟨false, false, 0x14, 0, 0, 0, 0x01⟩
  | .emit edge b c => ⟨false, false, 0x14, edge, b, c, 0x02⟩
  | .susp a b => ⟨false, false, 0x14, a, b, 0, 0x03⟩
  | .futInit a => ⟨false, false, 0x14, a, 0, 0, 0x04⟩
  | .futReg a b c => ⟨false, false, 0x14, a, b, c, 0x05⟩
  | .futRes a b => ⟨false, false, 0x14, a, b, 0, 0x06⟩
  | .futResP a b => ⟨false, false, 0x14, a, b, 1, 0x06⟩
  | .futRd a b => ⟨false, false, 0x14, a, b, 0, 0x07⟩
  | .futRdS a b => ⟨false, false, 0x14, a, b, 1, 0x07⟩
  | .gNotify a b n => ⟨false, false, 0x14, a, b, n, 0x08⟩
  | .gLaunch a b c => ⟨false, false, 0x14, a, b, c, 0x09⟩
  | .phLease a b c => ⟨false, false, 0x15, a, b, c, 0x00⟩
  | .phRun a b c => ⟨false, false, 0x15, a, b, c, 0x01⟩
  | .phFree a => ⟨false, false, 0x15, a, 0, 0, 0x02⟩
  | .tkArm a b e => ⟨false, false, 0x16, a, b, e, 0x00⟩
  | .tkBud a b k => ⟨false, false, 0x16, a, b, k, 0x01⟩
  | .tkCmt a b c => ⟨false, false, 0x16, a, b, c, 0x02⟩
  | .tkDraft a b => ⟨false, false, 0x16, a, b, 0, 0x03⟩
  | .tkConf a b c => ⟨false, false, 0x16, a, b, c, 0x04⟩
  | .tkNext a b => ⟨false, false, 0x16, a, b, 0, 0x05⟩
  | .tkSt a b which => ⟨false, false, 0x16, a, b, which, 0x06⟩
  | .trap n => ⟨false, false, 0x17, 0, (n.extractLsb' 6 6), (n.extractLsb' 0 6), 0x00⟩
  | .eret => ⟨false, false, 0x17, 0, 0, 0, 0x01⟩
  | .crRd a n => ⟨false, false, 0x17, a, (n.extractLsb' 6 6), (n.extractLsb' 0 6), 0x02⟩
  | .crWr a n => ⟨false, false, 0x17, a, (n.extractLsb' 6 6), (n.extractLsb' 0 6), 0x03⟩
  | .crSet a n => ⟨false, false, 0x17, a, (n.extractLsb' 6 6), (n.extractLsb' 0 6), 0x04⟩
  | .crClr a n => ⟨false, false, 0x17, a, (n.extractLsb' 6 6), (n.extractLsb' 0 6), 0x05⟩
  | .repart a b => ⟨false, false, 0x17, a, b, 0, 0x06⟩
  | .repartRcl a b => ⟨false, false, 0x17, a, b, 1, 0x06⟩
  | .repartStop a b => ⟨false, false, 0x17, a, b, 2, 0x06⟩
  | .repartRun a b => ⟨false, false, 0x17, a, b, 3, 0x06⟩
  | .halt => ⟨false, false, 0x17, 0, 0, 0, 0x07⟩
  | .brk => ⟨false, false, 0x17, 0, 0, 0, 0x08⟩
  | .ctrRd a n => ⟨false, false, 0x17, a, 0, n, 0x09⟩
  | .ctrCfg a n => ⟨false, false, 0x17, a, 0, n, 0x0A⟩
  | .ctrClr a => ⟨false, false, 0x17, a, 0, 0, 0x0B⟩
  | .causeRead .. => ⟨false, false, 0, 0, 0, 0, 0⟩
  | .loadReturn .. => ⟨false, false, 0, 0, 0, 0, 0⟩
  | .fetchReturn .. => ⟨false, false, 0, 0, 0, 0, 0⟩
  | .homeAccess .. => ⟨false, false, 0, 0, 0, 0, 0⟩
  | .fullEmptyArrival .. => ⟨false, false, 0, 0, 0, 0, 0⟩
  | .writeBack .. => ⟨false, false, 0, 0, 0, 0, 0⟩
  | .eviction .. => ⟨false, false, 0, 0, 0, 0, 0⟩
  | .monitorTimeout .. => ⟨false, false, 0, 0, 0, 0, 0⟩
  | .messageArrival .. => ⟨false, false, 0, 0, 0, 0, 0⟩
  | .handleCommandArrival .. => ⟨false, false, 0, 0, 0, 0, 0⟩
  | .handleCommandCompletion .. => ⟨false, false, 0, 0, 0, 0, 0⟩
  | .wideningConversion .. => ⟨false, false, 0, 0, 0, 0, 0⟩
  | .leaseGrant .. => ⟨false, false, 0, 0, 0, 0, 0⟩
  | .leaseWatchdogExpiry .. => ⟨false, false, 0, 0, 0, 0, 0⟩
  | .arrayCommandCompletion .. => ⟨false, false, 0, 0, 0, 0, 0⟩
  | .bankCommandPerformed .. => ⟨false, false, 0, 0, 0, 0, 0⟩
  | .pairArrival .. => ⟨false, false, 0, 0, 0, 0, 0⟩
  | .applicationEnd .. => ⟨false, false, 0, 0, 0, 0, 0⟩
  | .flushArrival .. => ⟨false, false, 0, 0, 0, 0, 0⟩
  | .closeArrival .. => ⟨false, false, 0, 0, 0, 0, 0⟩
  | .copyCompletion .. => ⟨false, false, 0, 0, 0, 0, 0⟩
  | .invalidationArrival .. => ⟨false, false, 0, 0, 0, 0, 0⟩
  | .invalidationAcknowledgement .. => ⟨false, false, 0, 0, 0, 0, 0⟩
  | .migrate .. => ⟨false, false, 0, 0, 0, 0, 0⟩
  | .release .. => ⟨false, false, 0, 0, 0, 0, 0⟩
  | .migrationCompletion .. => ⟨false, false, 0, 0, 0, 0, 0⟩
  | .launchCompletion .. => ⟨false, false, 0, 0, 0, 0, 0⟩
  | .waveDrain .. => ⟨false, false, 0, 0, 0, 0, 0⟩
  | .itemArrival .. => ⟨false, false, 0, 0, 0, 0, 0⟩
  | .stealRequest .. => ⟨false, false, 0, 0, 0, 0, 0⟩
  | .stealBackoffExpiry .. => ⟨false, false, 0, 0, 0, 0, 0⟩
  | .probeTimeout .. => ⟨false, false, 0, 0, 0, 0, 0⟩
  | .probeToken .. => ⟨false, false, 0, 0, 0, 0, 0⟩
  | .emergencyEntryRequest .. => ⟨false, false, 0, 0, 0, 0, 0⟩
  | .sealArrival .. => ⟨false, false, 0, 0, 0, 0, 0⟩
  | .resumeNotice .. => ⟨false, false, 0, 0, 0, 0, 0⟩
  | .phraseLeaseGrant .. => ⟨false, false, 0, 0, 0, 0, 0⟩
  | .phraseRunCompletion .. => ⟨false, false, 0, 0, 0, 0, 0⟩
  | .lexrelWrite .. => ⟨false, false, 0, 0, 0, 0, 0⟩
  | .save .. => ⟨false, false, 0, 0, 0, 0, 0⟩
  | .restore .. => ⟨false, false, 0, 0, 0, 0, 0⟩
  | .move .. => ⟨false, false, 0, 0, 0, 0, 0⟩
  | .unfwd .. => ⟨false, false, 0, 0, 0, 0, 0⟩
  | .preemptionCompletion .. => ⟨false, false, 0, 0, 0, 0, 0⟩
  | .debugHalt .. => ⟨false, false, 0, 0, 0, 0, 0⟩
  | .debugResume .. => ⟨false, false, 0, 0, 0, 0, 0⟩
  | .powerOnReset => ⟨false, false, 0, 0, 0, 0, 0⟩
  | .boot .. => ⟨false, false, 0, 0, 0, 0, 0⟩
  | .bootPortTimeout => ⟨false, false, 0, 0, 0, 0, 0⟩
  | .discoveryPacket .. => ⟨false, false, 0, 0, 0, 0, 0⟩
  | .imageDelivery .. => ⟨false, false, 0, 0, 0, 0, 0⟩
  | .imageAcknowledgement .. => ⟨false, false, 0, 0, 0, 0, 0⟩
  | .launch .. => ⟨false, false, 0, 0, 0, 0, 0⟩
  | .map .. => ⟨false, false, 0, 0, 0, 0, 0⟩
  | .copy .. => ⟨false, false, 0, 0, 0, 0, 0⟩
  | .query .. => ⟨false, false, 0, 0, 0, 0, 0⟩
  | .quote .. => ⟨false, false, 0, 0, 0, 0, 0⟩
  | .power .. => ⟨false, false, 0, 0, 0, 0, 0⟩
  | .undefinedLitarMessage .. => ⟨false, false, 0, 0, 0, 0, 0⟩
  | .nonLitarFrame .. => ⟨false, false, 0, 0, 0, 0, 0⟩
  | .priorityFlowControl .. => ⟨false, false, 0, 0, 0, 0, 0⟩
  | .scedyFlit .. => ⟨false, false, 0, 0, 0, 0, 0⟩
  | .linkLoss .. => ⟨false, false, 0, 0, 0, 0, 0⟩
  | .channelPowerEntry .. => ⟨false, false, 0, 0, 0, 0, 0⟩
  | .channelWake .. => ⟨false, false, 0, 0, 0, 0, 0⟩
  | .illegalInstruction => ⟨false, false, 0, 0, 0, 0, 0⟩
  | .rotationBoundary .. => ⟨false, false, 0, 0, 0, 0, 0⟩
  | .stealReply .. => ⟨false, false, 0, 0, 0, 0, 0⟩

/-- The EXT word of a jl.l (R19, R27). -/
def encodeExt (off : BitVec 48) : BitVec 32 :=
  joinWord ⟨false, false, 0x3F, off.extractLsb' 42 6, off.extractLsb' 36 6, off.extractLsb' 30 6, off.extractLsb' 24 6⟩

/-- The words of an instruction: two for jl.l, whose P is always 1 (R27), none for an event, one for any
other. -/
def encode (x : InstrWord) : List (BitVec 32) :=
  match x.instr with
  | .jlL off => [joinWord { encodeFields x.instr with p := true, w := x.w }, encodeExt off]
  | i => if i.isEvent then [] else [joinWord { encodeFields i with p := x.p, w := x.w }]

/-- The bytes of an instruction, in the order in which memory holds them (R5, R18). -/
def encodeBytes (x : InstrWord) : List (BitVec 8) := (encode x).flatMap bytesOfWord

end Sys2Proof
end

