-- ==== Sys2Proof/Config.lean ====
section
/-! DEFINITION. What an implementation fixes and the manual leaves open. None of these constants has a
body: nothing proved about the model can rest on a value of one. -/

set_option Elab.async false

namespace Sys2Proof

/-- The n-th free value the machine draws where the manual states no value (log 6). -/
opaque Config.freeNat : Nat → Nat

/-- SHAKE256 of a byte string, taken to n bytes. R295 and R299 name the function and do not define it
(log 8). -/
opaque Config.shake256 : List (BitVec 8) → Nat → List (BitVec 8)

/-- Ed448 verification of a signature over a message under a public key (R295, log 8). -/
opaque Config.ed448Verify : List (BitVec 8) → List (BitVec 8) → List (BitVec 8) → Bool

/-- Ed448 signature of a message with the device's identity key (R299, log 8). -/
opaque Config.ed448Sign : List (BitVec 8) → List (BitVec 8)

/-- The device's Ed448 public key, fixed at manufacture, as a number of 57 bytes (R298, R299, log 8). -/
opaque Config.identityKey : Nat

/-- The device's own layout inside a save record (R335): the bytes that stand for the given content,
written as natural numbers (log 10). -/
opaque Config.saveLayout : List Nat → List (BitVec 8)

end Sys2Proof
end

