-- ==== Sys2Proof/Word.lean ====
section
/-! DEFINITION. The machine's words and their plainest arithmetic (00 R5). -/

set_option Elab.async false

namespace Sys2Proof

/-- A byte of memory. -/
abbrev Byte := BitVec 8

/-- A 64-bit scalar register or address. -/
abbrev Word := BitVec 64

/-- A 512-bit vector register: lane i at bits [32i+31:32i] (R5). -/
abbrev VWord := BitVec 512

/-- A mask register: bit i governs lane i (R165). -/
abbrev MWord := BitVec 16

/-- An FP32 bit pattern or a 32-bit lane. -/
abbrev Lane := BitVec 32

/-- Bits [hi:lo] of x as an unsigned integer (R9). -/
def bits (x hi lo : Nat) : Nat := (x >>> lo) % 2 ^ (hi + 1 - lo)

/-- Bit i of x. -/
def bit (x i : Nat) : Bool := x.testBit i

/-- The n-bit value x read as two's complement (R9, SExt). -/
def sext (x n : Nat) : Int :=
  let y := x % 2 ^ n
  if y < 2 ^ (n - 1) then (y : Int) else (y : Int) - (2 ^ n : Nat)

/-- The low n bits of an integer, as a natural number. -/
def wrap (x : Int) (n : Nat) : Nat := (x % ((2 ^ n : Nat) : Int)).toNat

/-- Element i of a vector, or d past its end. -/
def vget {α : Type} {n : Nat} (v : Vector α n) (i : Nat) (d : α) : α :=
  if h : i < n then v[i] else d

/-- v with element i replaced; unchanged past its end. -/
def vset {α : Type} {n : Nat} (v : Vector α n) (i : Nat) (x : α) : Vector α n :=
  if h : i < n then v.set i x h else v

/-- Lane i of a vector register. -/
def lane (v : VWord) (i : Nat) : Lane := v.extractLsb' (32 * i) 32

/-- The vector register whose lanes are the sixteen values given, lane 0 first. -/
def ofLanes (l : List Lane) : VWord :=
  BitVec.ofNat 512 ((l.take 16).foldr (fun x acc => acc * 2 ^ 32 + x.toNat) 0)

/-- The sixteen lanes of a vector register, lane 0 first. -/
def lanes (v : VWord) : List Lane := (List.range 16).map (lane v)

/-- A sparse table: the value of the first pair with key k, or d. -/
def sget {α : Type} (l : List (Nat × α)) (k : Nat) (d : α) : α :=
  match l with
  | [] => d
  | (j, x) :: r => if j = k then x else sget r k d

/-- The sparse table l with x at key k. -/
def sset {α : Type} (l : List (Nat × α)) (k : Nat) (x : α) : List (Nat × α) :=
  match l with
  | [] => [(k, x)]
  | (j, y) :: r => if j = k then (k, x) :: r else (j, y) :: sset r k x

/-- Replaces element i of a list; unchanged past its end. -/
def lset {α : Type} (l : List α) (i : Nat) (x : α) : List α := l.set i x

/-- Rounds x up to a multiple of m. -/
def roundUp (x m : Nat) : Nat := (x + m - 1) / m * m

/-- The ceiling of x / m. -/
def ceilDiv (x m : Nat) : Nat := (x + m - 1) / m

end Sys2Proof
end

