-- ==== Sys2Proof/Machine/State.lean ====
section
/-! DEFINITION. Every piece of state the manual gives the machine, as plain data, and the state after reset. -/

set_option Elab.async false

namespace Sys2Proof.Machine

open Sys2Proof

/-- The reasons a step can stop the machine with a fault. -/
inductive Fault where
  /-- Raised by `exec` of an event of the table that is not pending in the state: the hardware takes no such
  step. Safe: the machine stops where the hardware has nothing to do. -/
  | noSuchEvent
deriving DecidableEq, Repr

/-- The reasons a step can be refused. -/
inductive Refusal where
  /-- Raised by an arm of `exec` whose instruction has no meaning in the model yet. Safe: nothing can be proved
  of a refused step. -/
  | notModelled (mnemonic : String)
deriving DecidableEq, Repr

/-- What the latest word given to `exec` did (the model's own bookkeeping for pairs, log 4). -/
inductive IssueResult where
  /-- It completed, or nothing has issued. -/
  | completed
  /-- It parked: it has not issued (R132). -/
  | parked
  /-- It trapped with a cause, cr.taddr and cr.tinfo (R115). -/
  | trapped (cause : Nat) (taddr tinfo : Word)
deriving DecidableEq, Repr

/-- The five states of a slot (R132). -/
inductive SlotState where
  | empty | ready | parked | stopped | halted
deriving DecidableEq, Repr

/-- Who stopped a STOPPED slot, which decides what resumes it (R333, R339); a save resumes no slot (R335). -/
inductive StopMark where
  | byHalt | byControl | bySave
deriving DecidableEq, Repr

/-- A virtual page as a holder keeps its translation (R274, R277, R278). -/
structure Trans where
  asid : Nat
  /-- The leaf's G bit: it matches every ASID. -/
  global : Bool
  /-- First virtual address of the page. -/
  lo : Nat
  /-- Its size in bytes. -/
  size : Nat
  /-- The leaf entry. -/
  pte : Nat
deriving DecidableEq, Repr

/-- Where an access is performed (R246, R275). -/
inductive Via where
  /-- At a scratchpad bank. -/
  | scratch
  /-- In the issuing cluster's data cache (MT = WB). -/
  | cached
  /-- At the home of a global address (MT = UC, atomics, regions). -/
  | home
deriving DecidableEq, Repr

/-- One access: the physical key of its first byte, its length in bytes, where it is performed, its effective
address and the translation it used. -/
structure Access where
  key : Nat
  n : Nat
  via : Via
  ea : Word
  trans : List Trans
deriving DecidableEq, Repr

/-- Where a result goes when it returns (R24, R139). -/
inductive Dst where
  /-- Nowhere: s0 or m0. -/
  | none
  /-- A result that is discarded when it returns: nothing waits for it any more (R22). -/
  | dropped
  /-- A scalar register. -/
  | s (r : Nat)
  /-- A vector register, in the lanes of a mask. -/
  | v (r mask : Nat)
  /-- A mask register. -/
  | m (r : Nat)
  /-- The reserved entry of a queue. -/
  | q (k entry : Nat)
deriving DecidableEq, Repr

/-- How loaded bytes become a result (R107, R108, R180, R181). -/
inductive Extend where
  | zero
  | sign
  /-- The bytes as they stand, to a vector register. -/
  | raw
  /-- Elements decoded under a window-table entry as it stood at issue: the first code's bit within the bytes read,
  how many, whether through the plane window, and the stochastic draws of the access (R188). -/
  | window (entry : Word) (bit count : Nat) (plane : Bool) (draws : List Nat)
  /-- The word loaded is lane i. -/
  | lane (i : Nat)
deriving DecidableEq, Repr

/-- The four full/empty operations (R109). -/
inductive FeOp where
  | ldFe | ldFf | stEf | stF
deriving DecidableEq, Repr

/-- The ten atomic operations (R253). -/
inductive AmoOp where
  | add | and | or | xor | min | max | minu | maxu | swap | cas
deriving DecidableEq, Repr

/-- An armed monitor (R143, R258). -/
structure Monitor where
  num : Nat
  /-- The granule's physical key. -/
  key : Nat
  /-- The address that armed it. -/
  ea : Word
  hit : Bool
  registered : Bool
deriving DecidableEq, Repr

/-- What a parked instruction has done before it can issue: the continuation it resumes from when its thread
tries it again. -/
inductive Pend where
  | none
  /-- It waits until the in-flight items named have left `work`; `stage` says what comes next. -/
  | wait (stage : Nat) (ids : List Nat)
  /-- Its request was performed; the value is the answer. -/
  | answered (v : Word)
  /-- Its lexicon command was performed, with its value, and a sequence stop follows with cr.taddr (R352). -/
  | performed (v stop : Word)
  /-- Its request was refused: the trap it takes. -/
  | refused (cause : Nat) (taddr tinfo : Word)
  /-- A timed wait, with the core's cycle count at which it ends. -/
  | deadline (cycle : Nat)
  /-- A wait whose timeout, or whose timeline's number, has been reached. -/
  | elapsed
  /-- A fetch of the block of a physical key is under way. -/
  | fetch (key : Nat)
  /-- Its descriptor has been read: the bytes, and its address above them; it waits for its tag (R270). -/
  | item (block : Nat)
deriving DecidableEq, Repr

/-- The registers that the A-class word of a parked pair reads, as they stood when the request of its C-class word was made
(R22). -/
structure Sources where
  s : Vector Word 32
  v : Vector VWord 32
  m : Vector MWord 8
deriving DecidableEq, Repr

/-- A trap that has been decided and waits for the thread's outstanding results (R25, R115). -/
structure PendTrap where
  cause : Nat
  taddr : Word
  tinfo : Word
  /-- What cr.tpc will hold. -/
  pc : Word
  /-- The instruction that raised it, which a double fault reports (R117). -/
  at_ : Word
deriving DecidableEq, Repr

/-- A work item: its graph and stage, its tuple, and where it came from (R314-R320). -/
structure Item where
  /-- The die and number of its graph: die * 128 + number. -/
  graph : Nat
  stage : Nat
  lo : Word
  hi : Word
  /-- The edge it was emitted along, or none for an injected or resumed item. -/
  edge : Option Nat
  /-- The physical key of its continuation record, for a resume item (R305). -/
  record : Option Nat
  /-- The core that emitted it, for the emergency entry (R320). -/
  origin : Nat
  /-- Its age in core cycles (R322). -/
  age : Nat
  /-- A dispatch breakpoint returned it: its next dispatch is not tested (R341). -/
  tested : Bool
  /-- It holds one of the reserve entries outside the pool (R320). -/
  reserve : Bool
  /-- It has joined a deque, so that its age is no longer 0 when it joins one (R322). -/
  joined : Bool
deriving DecidableEq, Repr

/-- A thread's place in a graph (R313, R316). -/
structure Member where
  graph : Nat
  stage : Nat
  place : Nat
  start : Word
  /-- CODE, from which RESUME counts (R304). -/
  code : Word
  /-- Its graph has ended (R314). -/
  ended : Bool
deriving DecidableEq, Repr

/-- One entry of a queue: a number that names it, how many results it still waits for, and its value (R139). -/
structure QEntry where
  num : Nat
  missing : Nat
  val : VWord
deriving DecidableEq, Repr

/-- The kinds of copy (R282). -/
inductive CopyKind where
  | linear | strided | tensor
deriving DecidableEq, Repr

/-- A granule of a copy, of up to 64 bytes: the pieces its bytes are read from and those they are written to, each a
key, a length and where it is performed, and the addresses of its first byte (R282). -/
structure Granule where
  src : List (Nat × Nat × Via)
  dst : List (Nat × Nat × Via)
  srcAddr : Word
  dstAddr : Word
deriving DecidableEq, Repr

/-- A copy handed to a context (R270, R285). -/
structure CopyJob where
  kind : CopyKind
  ctx : Nat
  /-- Its number in the context (R325). -/
  num : Nat
  /-- What is still to be moved, in order; a `cp.t` moves when its handle command is performed. -/
  granules : List Granule
  /-- 0 moving, 1 acting, 2 writing STATUS, 3 setting the tag (R285). -/
  phase : Nat
  act : Nat
  atgt : Word
  /-- The access of the action's target, when it has one. -/
  target : Option Access
  bytes : Nat
  desc : Word
  /-- The physical key of its STATUS word, and of its FADDR word unless it is a `cp.t`. -/
  status : Nat
  faddr : Option Nat
  tag : Nat
  /-- The STATUS cause, and the address it faulted with. -/
  cause : Nat
  faultAddr : Word
  /-- A `cp.t` whose elements have been moved, and how many of them were dropped (R284). -/
  moved : Bool
  drops : Nat
  /-- The address space of the issuing thread, for a resolution's waiter list. -/
  asid : Nat
  root : Nat
  trans : List Trans
deriving DecidableEq, Repr

/-- A message (R144, R260). -/
structure Msg where
  lo : Word
  hi : Word
deriving DecidableEq, Repr

/-- A control-node arm (R312). -/
structure Arm where
  target : Nat
  after : Nat
deriving DecidableEq, Repr

/-- A control node (R312). -/
structure Node where
  kind : Nat
  reg : Nat
  test : Nat
  k : Word
  arms : List Arm
  /-- How often it has chosen arm 0 since launch (R314, ITER). -/
  iter : Nat
deriving DecidableEq, Repr

/-- A stage of a live graph (R309-R311). -/
structure Stage where
  code : Word
  places : List Nat
  deqcap : Nat
  slot0 : Nat
  nthr : Nat
  /-- The engine's placement pointer (R317). -/
  ptr : Nat
deriving DecidableEq, Repr

/-- A live graph (R308-R316). -/
structure Graph where
  num : Nat
  /-- The partition that launched it (R313). -/
  owner : Nat
  stages : List Stage
  /-- FROM and TO of each edge. -/
  edges : List (Nat × Nat)
  nodes : List Node
  /-- DONEF: its address, physical key and where it is performed, when nonzero. -/
  donef : Option Access
  notify : Vector Word 64
  live : Nat
  /-- The arm's AFTER to evaluate when the live count drains, once an injection has been made. -/
  after : Option Nat
  /-- Drains observed: the timeline of R325. -/
  drains : Nat
  /-- The address space it was launched in, for DONEF's waiter list. -/
  asid : Nat
  root : Nat
deriving DecidableEq, Repr

/-- A continuation record as a die's engine keeps it (R305). -/
structure Record where
  key : Nat
  /-- The graph of the thread that has put it on a waiter list that is not resolved yet: 0 for none, 256 for a graph that
  has ended since, whose notice is discarded (R314). -/
  reg : Nat
  /-- The suspended item, once it is sealed. -/
  sealed_ : Option Item
  /-- The notices that no seal has met yet, each by the graph that registered it. -/
  notices : List Nat
deriving DecidableEq, Repr

/-- An armed pattern entry of a lexicon slot (R345). -/
structure LexEntry where
  /-- The tokens, none for WILD, oldest first. -/
  toks : List (Option Nat)
  act : Nat
  arg : Nat
  tgt : Nat
  inj : List Nat
  /-- The graph recorded at arming: die * 128 + number. -/
  graph : Nat
deriving DecidableEq, Repr

/-- A budget of a lexicon slot (R346, R358). -/
structure Budget where
  count : Nat := 0
  enabled : Bool := false
  pending : Bool := false
  lo : Nat := 0
  hi : Nat := 0
deriving DecidableEq, Repr

/-- The three states of a lexicon slot (R356). -/
inductive LexState where
  | free | run | stopped
deriving DecidableEq, Repr

/-- A lexicon slot (R354). -/
structure LexSlot where
  state : LexState := .free
  entries : Vector (Option LexEntry) 8 := Vector.replicate 8 none
  b0 : Budget := {}
  b1 : Budget := {}
  /-- The last three committed tokens, latest first. -/
  history : List Nat := []
  pos : Nat := 0
  force : List Nat := []
  drafts : List Nat := []
  trap : Bool := false
  overflow : Nat := 0
  fired : Nat := 0
  /-- Its storage holds an uncorrectable word, and a single-bit error (R364). -/
  bad : Bool := false
  soft : Bool := false
deriving DecidableEq, Repr

/-- A command of the lexicon with what it read at issue (R344-R346, R357). -/
inductive LexCmd where
  | reset (trap : Bool)
  | arm (e : Nat) (entry : LexEntry)
  | bud (k : Nat) (val : Word)
  | cmt (tok : Nat)
  | draft (tok : Nat)
  | conf (n : Nat)
  | next
  | st (sel : Nat)
  | release
deriving DecidableEq, Repr

/-- A die. -/
structure Die where
  icache : List (Nat × VWord) := []
  tlb : List Trans := []
  /-- cr.dbm0-cr.dbm3 (R341). -/
  dbm : Vector Word 4 := Vector.replicate 4 0
  graphs : List Graph := []
  records : List Record := []
  lexicon : List (Nat × LexSlot) := []
deriving DecidableEq, Repr

/-- The layouts of a representation (R64), coded as `t.q` reports them (R91). -/
inductive Layout where
  | lin | tiled64 | plane | blocked
deriving DecidableEq, Repr

/-- The placements (R64), coded as `t.q` reports them. -/
inductive Placement where
  | dieLocal | striped | sliced
deriving DecidableEq, Repr

/-- A representation: layout, placement and redundancy (R64, R65). -/
structure Rep where
  layout : Layout
  placement : Placement
  replicated : Bool
deriving DecidableEq, Repr

/-- A tensor descriptor that passed R53. -/
structure TensorDesc where
  fmt : Nat
  ops : Nat
  hints : Nat
  dims : List Nat
  /-- The address it was read from. -/
  addr : Word
deriving DecidableEq, Repr

/-- A view descriptor that passed R55: one entry per axis. -/
structure View where
  handle : Nat
  /-- FILL is CONST. -/
  const : Bool
  fillc : Nat
  origin : List Int
  n : List Nat
  stride : List Int
  padlo : List Nat
  padhi : List Nat
deriving DecidableEq, Repr

/-- A run of scratchpad bytes that a transfer moves through a window (R79, R192). -/
structure Run where
  /-- Its bytes in order, as physical keys and lengths. -/
  ranges : List (Nat × Nat)
  /-- The window-table entry as it stood at issue and whether it is the plane window; none for windows 0 and 1. -/
  entry : Option (Word × Bool)
  /-- The cluster's key of offset 0, the offset that the transfer starts at, and the offset of its first byte. -/
  base : Nat
  start : Nat
  first : Nat
  count : Nat
  /-- The stochastic draws of its elements, taken at issue, or when its handle command is positioned (R157, R214). -/
  draws : List Nat
deriving DecidableEq, Repr

/-- A phrase block that passed R88 (R86). -/
structure Phrase where
  ops : List Nat
  nh : Nat
  k : List Lane
  h1 : Nat
  h2 : Nat
deriving DecidableEq, Repr

/-- A region descriptor that passed its checks (R232). -/
structure RegionDesc where
  handle : Nat
  first : Nat
  count : Nat
  /-- The records of the spill area as physical keys of its 64-byte lines. -/
  spill : List Nat
  splen : Nat
  quota : Nat
  ordered : Bool
  phrase : Phrase
  /-- The region's own pages, for a RAW tensor. -/
  trans : List Trans
  /-- The address it was read from. -/
  addr : Word
deriving DecidableEq, Repr

/-- An operand of the array (R205): plane blocks in memory, or the encoded blocks of a view, as numbers, once its
handle command has read them. -/
inductive MxSrc where
  | memory (accs : List Access)
  | view (blocks : Option (List Nat))
deriving DecidableEq, Repr

/-- The array commands with what they read at issue (R213, R214); `flags` are those of a view's encoding (R207). -/
inductive MxCmd where
  | cfg (block : VWord)
  | mma (sparse : Bool) (a b : MxSrc) (flags : BitVec 5) (tile : Nat)
  | zero (tile : Nat)
  | ld (run : Run) (tile : Nat)
  | st (run : Run) (tile : Nat)
deriving DecidableEq, Repr

/-- A handle command with everything it read at issue (R73, R77), the array's view operands (R207) and `up.open`
(R224) among them. -/
inductive HandleCmd where
  | new (d : TensorDesc)
  | free (h : Nat)
  | ld (v : View) (run : Run)
  /-- The bytes of its source run as a little-endian number. -/
  | st (v : View) (run : Run) (data : Nat)
  | gat (h : Nat) (idx : List Nat) (run : Run)
  | phr (h : Nat) (p : Phrase) (first count : Nat)
  /-- Its destination, once the thread has gone on, and the operation set at its position. -/
  | q (h sel : Nat) (dst : Option Dst) (ops : Nat)
  /-- Once positioned: the representation it converts to, the frames reserved for it, and whether it only adds the
  second copy. -/
  | widen (h ops : Nat) (conv : Option (Rep × List Nat × Bool))
  | cpT (src dst : View) (job : CopyJob)
  | upOpen (d : RegionDesc)
  /-- The view operands of an array command: for A and for B, if it is a view; the command, the bytes it reads, and, once
  it has been accepted, its item and the configuration that governs it (R204). -/
  | operand (a b : Option View) (cmd : MxCmd) (holds : List (Nat × Nat × Bool)) (id : Nat) (cfg : Option VWord)
deriving DecidableEq, Repr

/-- The states of an update region at a channel (R239). -/
inductive RegionState where
  | opened | applying | closing | closed
deriving DecidableEq, Repr

/-- A pair, or an unordered bin entry that holds several, in a bin (R237). -/
structure BinEntry where
  /-- The linear index of its element. -/
  elem : Nat
  val : Lane
  src : Nat
  seq : Nat
  /-- How many pairs it holds. -/
  pairs : Nat
  /-- Its storage is uncorrectable, its pair count among it (R244). -/
  bad : Bool
  badCount : Bool
deriving DecidableEq, Repr

/-- A region's share at one of its channels (R233-R239). -/
structure Share where
  chan : Nat
  state : RegionState
  /-- Bin entries in the order they were taken. -/
  bins : List BinEntry
  /-- Spill records written and not applied yet: the first ones of the share, in memory (R238). -/
  log : Nat
  /-- The record numbers of its share of the spill area: first and how many. -/
  recFirst : Nat
  recCount : Nat
  accepted : Nat
  spilled : Nat
  applications : Nat
  lost : Nat
  /-- Flushes 1 to this number have completed at the channel, and so have those listed (R241). -/
  flushed : Nat
  early : List Nat
  /-- Flushes the application in progress completes. -/
  flushing : List Nat
  /-- Pairs are held because the log is full (R226). -/
  full : Bool
  /-- The moment at which the first pair that is pending now was accepted (R228). -/
  since : Nat
deriving DecidableEq, Repr

/-- An open update region (R232-R243). -/
structure Region where
  sid : Nat
  desc : RegionDesc
  shares : List Share
  /-- Flushes issued: the next timeline number less one (R241). -/
  flushes : Nat
deriving DecidableEq, Repr

/-- A tensor (R51-R67). -/
structure Tensor where
  handle : Nat
  /-- The partition whose threads may name it (R51). -/
  owner : Nat
  desc : TensorDesc
  /-- The operation set at the highest position taken, and at the highest position performed. -/
  ops : Nat
  /-- The representation in force, and the one that the accepted widenings leave (R70). -/
  rep : Rep
  nextRep : Rep
  /-- The die of its home controller (R66). -/
  home : Nat
  /-- The physical keys of its frames: of the first copy in order, then of the second. -/
  frames : List Nat
  /-- Frames of its representation drawn from cr.rquota (R67). -/
  quota : Nat
  /-- Base virtual address of a RAW tensor (R61), its leaf permissions, and its address space. -/
  rawBase : Nat
  rawPte : Nat
  asid : Nat
  /-- Element codes by linear index and scale codes by block, unlisted +0; a RAW tensor's stand in memory. -/
  elems : List (Nat × Nat)
  scales : List (Nat × Nat)
  sticky : BitVec 5
  /-- `t.free` has taken its position (R71). -/
  freed : Bool
deriving DecidableEq, Repr

/-- A phrase lease of a channel (R328-R332). -/
structure PhraseLease where
  handle : Nat
  chan : Nat
  core : Nat
  /-- Runs it permits. -/
  expiry : Nat
  accepted : Nat
  done : Nat
  /-- It has ended as a save ends it: it accepts no run. -/
  ended : Bool
deriving DecidableEq, Repr

/-- A waiting `ph.lease` (R329). -/
structure PhraseReq where
  chan : Nat
  core : Nat
  slot : Nat
  count : Nat
deriving DecidableEq, Repr

/-- A phrase-lease run (R330, R331): its ranges translated line by line. -/
structure PhraseRun where
  lease : Nat
  num : Nat
  dst : List Access
  src1 : List Access
  src2 : List Access
  count : Nat
  fmt : Nat
  phrase : Phrase
deriving DecidableEq, Repr

/-- What has become of the data of an item on its way (R121, R122). -/
inductive Link where
  | clean
  /-- A correctable error, corrected and counted where it arrives. -/
  | corrected
  /-- Uncorrectable: it arrives as zero. -/
  | corrupt
deriving DecidableEq, Repr

/-- What an item in flight is. -/
inductive Body where
  /-- A load on its way to where it is performed, one part for each aligned 64-byte line it touches (R145, R249):
  the parts still to be read, and the bytes read so far with their count and the address of a bad one. -/
  | load (parts : List Access) (got len : Nat) (bad : Option Word) (dst : Dst) (ext : Extend)
  /-- A store: its bytes and its bit mask, as little-endian numbers (R250). -/
  | store (acc : Access) (data mask : Nat)
  /-- A result on its way back to its destination, with the address of uncorrectable data it carries and the
  flags its decoding raised, and the translations its access used (R24, R108, R122, R266). -/
  | ret (dst : Dst) (val : VWord) (bad : Option Word) (flags : BitVec 5) (trans : List Trans)
  /-- A full/empty access; it waits at its bank once it has arrived (R109, R142). -/
  | fe (op : FeOp) (acc : Access) (dst : Dst) (data : Word)
  /-- An atomic of n bytes (R253). -/
  | amo (op : AmoOp) (acc : Access) (dst : Dst) (x e : Word)
  /-- A write-back of a sector's masked bytes (R194). -/
  | writeBack (cluster key : Nat) (data : VWord) (mask : BitVec 64) (writers : BitVec 16) (trans : List Trans)
  /-- A fetch of an instruction block by its physical key, with the translation that it uses (R197, R266). -/
  | fetch (key : Nat) (trans : List Trans)
  /-- An operation on a barrier object; a bar.wait stays until its phase has passed (R256). -/
  | bar (op : Nat) (acc : Access) (arg : Word)
  /-- An operation on a future: 0 init, 1 reg, 2 res, 3 res.p, 4 rd, 5 rd.s (R303, R323). -/
  | fut (op : Nat) (acc : Access) (dst : Dst) (arg : Word) (recAcc : Option Access)
  /-- The engine's resolution of a graph's DONEF, with the address space of its waiter list (R314). -/
  | resolve (acc : Access) (value : Word) (asid root : Nat)
  /-- A monitor's registration at its granule's home (R258). -/
  | monArm (num key : Nat) (trans : List Trans)
  /-- A message to a core's mailbox (R260). -/
  | msg (dest : Nat) (m : Msg)
  /-- A handle command; it has taken its position once it has arrived (R12). `asked` is the moment at which its accesses
  reached the channels of an open region and were held there (R228). -/
  | handle (cmd : HandleCmd) (asked : Option Nat)
  /-- An array command under its timeline number (R212). -/
  | mx (cluster num : Nat) (cmd : MxCmd)
  /-- A bank command: function, destination and source keys, scalar operand, Y, lines, target format and SAT; the
  source lines it has read, the lines of D it has written, and its flags so far (R216-R222). -/
  | bank (fn d : Nat) (x : Option Nat) (v y : Lane) (lines fmt : Nat) (sat : Bool) (got : List VWord) (line : Nat)
      (flags : BitVec 5)
  /-- An update pair on its way to its channel (R235, R236). -/
  | pair (sid chan elem : Nat) (val : Lane) (src seq : Nat)
  /-- A flush, a close and a query of a region on its way to a channel (R241-R243). -/
  | flush (sid chan num : Nat) (dst : Dst)
  | close (sid chan : Nat)
  | upQuery (sid chan sel group acc : Nat) (dst : Dst)
  /-- A copy in its context (R270). -/
  | copy (job : CopyJob)
  /-- An invalidation for one holder: 0 a core, 1 a die, 2 a cluster; what it names; the items it drains, once it
  has arrived (R264-R266). -/
  | inval (kind holder asid lo len : Nat) (drain : List Nat)
  /-- A query of a timeline (R326). -/
  | tlRd (kind id : Nat) (dst : Dst)
  /-- An item on its way to a placement; a `done`; a notify add; a seal and a resume notice (R305, R306, R315). -/
  | item (dest : Nat) (it : Item)
  | done (graph : Nat)
  | notify (graph reg : Nat) (x : Word) (dst : Dst)
  | seal (it : Item)
  | notice (key graph : Nat)
  /-- A lexicon command to a slot (R344). -/
  | lex (slot : Nat) (cmd : LexCmd)
  /-- A launch or an abort with the launching thread's registers (R313). -/
  | launch (die : Nat) (desc lo hi : Word) (asid root : Nat) (priv : Bool) (dst : Dst)
  /-- A steal request to a victim, and its answer (R319). -/
  | steal (victim graph stage : Nat)
  | stolen (graph stage : Nat) (it : Option Item)
  /-- A probe token and an emergency request (R320): origin core, target core; a token keeps the target of the emit that it
  was sent for. -/
  | probe (origin dest first : Nat)
  | emergency (origin dest : Nat)
  /-- A phrase-lease run (R331). -/
  | phRun (run : PhraseRun)
  /-- A migration or a release (R281): the frames' keys and their size, the key of its STATUS word, its tag, and its
  status once it is done. -/
  | migrate (release : Bool) (old new size status tag : Nat) (answer : Option Nat)
  /-- A pre-emption operation (R335-R337): 0 save, 1 restore, 2 move, 3 unfwd; its save area, the saved cores and the
  destinations, SPUSE, the key of its STATUS word, its tag, how far it has come, and its status once it is done. -/
  | preempt (op : Nat) (area : List Access) (list dests : List Nat) (spuse status tag stage : Nat) (answer : Option Nat)
  /-- A debug halt or resume (R339). -/
  | debug (halt : Bool)
  /-- A discovery packet on its way to a tile with the coordinate it carries (R294). -/
  | discovery (tile : Nat) (x y : Int)
  /-- A data image for a core on its way from tile to tile down the multicast tree, and that core's acknowledgement on its
  way up (R294). -/
  | image (tile dest off : Nat) (data : List Byte)
  | imageAck (tile dest : Nat)
deriving DecidableEq, Repr

/-- An item in flight. -/
structure Work where
  /-- Its number, never reused. -/
  id : Nat
  /-- The core it comes from, and the slot that issued it; 32 more than the slot once that thread has ended. -/
  core : Nat
  slot : Nat
  /-- Where it is performed: the number of a home (`Home` in Ops). -/
  home : Nat
  /-- Items that must have left first: what a release waits for (R111). -/
  deps : List Nat
  /-- The moment it was issued. -/
  stamp : Nat
  /-- The address of the instruction that issued it, which a second fault reports (R117). -/
  pc : Word
  /-- It is an acquire that holds its thread's later accesses until it is performed (R109, R251). -/
  acquire : Bool
  /-- It is a release whose cluster cache has not been written back yet, with its scope, 2 .die or 3 .sys (R112). -/
  flush : Option Nat
  /-- The moment it arrived and waits at its home, if it has. -/
  arrived : Option Nat
  /-- What the links have made of its data (R121, R122). -/
  link : Link
  /-- Bytes that a later access of its thread waits for: key, length, and whether a load waits too, or only a
  store (R74, R126, R211, R223). -/
  holds : List (Nat × Nat × Bool)
  body : Body
deriving DecidableEq, Repr

/-- One hardware thread's context (R113, R129). -/
structure Thread where
  pc : Word := 0
  s : Vector Word 32 := Vector.replicate 32 0
  v : Vector VWord 32 := Vector.replicate 32 0
  m : Vector MWord 8 := Vector.replicate 8 0
  slot : SlotState := .empty
  /-- It has joined the rotation at its boundary (R135). -/
  competes : Bool := false
  mark : StopMark := .byControl
  /-- cr.cause and cr.cause2. -/
  cause : BitVec 7 := 0
  cause2 : BitVec 7 := 0
  tpc : Word := 0
  taddr : Word := 0
  tinfo : Word := 0
  /-- cr.tstat: PRIV, PHM, HM, UNREAD. -/
  priv : Bool := false
  phm : Bool := false
  hm : Bool := false
  unread : Bool := false
  tvec : Word := 0
  /-- cr.fflags: RM, the enables and the sticky flags, each NV DZ OF UF NX from bit 4 down (R99). -/
  rm : BitVec 3 := 0
  enables : BitVec 5 := 0
  fflags : BitVec 5 := 0
  /-- cr.oob (R60). -/
  oob : Word := 0
  /-- cr.seg.BASE in bytes (R187). -/
  seg : Nat := 0
  asid : BitVec 16 := 0
  pgroot : Word := 0
  /-- cr.srs (R157). -/
  srs : BitVec 32 := 0x9E3779B9
  monitors : List Monitor := []
  /-- Full/empty accesses that a precise stop withdrew from their wait lists, and the later accesses of the thread that may
  not be performed before them, in issue order (R137). -/
  withdrawn : List Work := []
  member : Option Member := none
  item : Option Item := none
  /-- A stopped take holds the item a dispatch match gave it (R341). -/
  heldItem : Option Item := none
  /-- A stolen item has arrived for its parked take (R319). -/
  stolen : Option Item := none
  /-- The number of its latest accepted array command under its latest lease (R214). -/
  mxLast : Nat := 0
  /-- Its array lease was revoked and the trap has not been reported yet (R202). -/
  mxRevoked : Bool := false
  /-- Counters 4, 5 and 7 (R342). -/
  fstall : Word := 0
  issued : Word := 0
  park : Word := 0
  /-- The moment of its latest acquire: a filled byte older than it is not used (R109, R251). -/
  acquired : Nat := 0
  pend : Pend := .none
  pendTrap : Option PendTrap := none
  /-- Uncorrectable data has been written to its registers, or read by its command at issue, with ETRAP set: its address, that of
  the instruction that asked for it, and whether that instruction is the one being issued, until the trap 0x73 is taken (R117,
  R122). -/
  errTrap : Option (Word × Word × Bool) := none
  /-- A precise stop has been requested and waits for the thread's outstanding results, and for an instruction that has had
  its effect (R25, R137, R362). -/
  stopping : Option StopMark := none
  /-- The words of the instruction or pair that is parked, none when the thread fetches. -/
  latch : List (BitVec 32) := []
  /-- The block that its latest fetch found: its physical key and its bytes. While the thread's fetches stay in it they read these
  (R198). -/
  line : Option (Nat × VWord) := none
  /-- Queue entries its instruction has popped and not yet completed, latest first: queue and entry. While a trap may put them back no
  other thread pops past them (R10, R31). -/
  popped : List (Nat × QEntry) := []
  /-- The queue entries that its parked instruction took with its request, which its pushes fill when it completes: queue and
  entry (R31). -/
  promised : List (Nat × Nat) := []
  /-- What the A-class word of its parked pair reads (R22). -/
  sources : Option Sources := none
deriving DecidableEq, Repr

/-- The deque of a stage resident on a core (R318). -/
structure Deque where
  graph : Nat
  stage : Nat
  cap : Nat
  /-- Near end first. -/
  items : List Item
deriving DecidableEq, Repr

/-- A copy context's counts (R270, R325). -/
structure CopyCtx where
  /-- Copies completed since reset or restore. -/
  done : Nat := 0
  issued : Nat := 0
deriving DecidableEq, Repr

/-- The state of a core's steal round for a stage (R319). -/
structure StealRound where
  graph : Nat
  stage : Nat
  /-- The slot whose take caused it. -/
  slot : Nat
  /-- How many placements after its own have been asked in this round. -/
  asked : Nat
  /-- A request is on its way. -/
  busy : Bool
  /-- The core cycle before which the next round may not begin. -/
  until_ : Nat
  /-- When the request left, for the item's age (R322). -/
  sent : Nat
deriving DecidableEq, Repr

/-- One core (R129-R147). -/
structure Core where
  /-- cr.core: ROLES, LOCK and CTX (R130). -/
  roles : BitVec 32 := 0
  lock : Bool := false
  mode : Nat := 0
  threads : Vector Thread 16 := Vector.replicate 16 {}
  /-- The rotation counter and the compact pointer, which start at 0 (log 76), and the rotation in force since the last
  boundary. -/
  rot : Nat := 0
  ptr : Nat := 0
  lockstep : Bool := false
  /-- The latest cycle has brought the counter to 0 and its boundary is not taken yet (R133). -/
  boundary : Bool := false
  queues : Vector (List QEntry) 8 := Vector.replicate 8 []
  qmin : Word := 0x0808080808080808
  qcap : Word := 0x2020202020202020
  deques : List Deque := []
  /-- Items held at the core's input, in arrival order (R318). -/
  input : List Item := []
  /-- Per edge of a graph, the emit pointer (R317): graph, edge, placement index. -/
  emitPtr : List (Nat × Nat × Nat) := []
  steals : List StealRound := []
  /-- For each slot whose emit is parked, longest parked first: the cycle from which its next probe counts, and the graph and the edge
  it emits along (R320). -/
  emitParked : List (Nat × Nat × Nat × Nat) := []
  mailbox : List Msg := []
  inbox : List Msg := []
  /-- The accesses of the lanes of a vector access to the core's own banks that are still to be performed, by their items' numbers:
  no other access of the core to them comes between (R183). -/
  laneRuns : List (List Nat) := []
  /-- For each bank, whether its latest line access was a bank command's: the two sides alternate (R222). -/
  bankTurn : BitVec 16 := 0
  /-- cr.tags (R271). -/
  tags : Word := BitVec.allOnes 64
  copies : Vector CopyCtx 4 := Vector.replicate 4 {}
  /-- cr.win0-cr.win7 (R188). -/
  win : Vector Word 8 := Vector.replicate 8 0
  /-- cr.errc: CORR, UNC, DROPP, DROPM (R122). -/
  corr : Nat := 0
  unc : Nat := 0
  dropp : Nat := 0
  dropm : Nat := 0
  /-- The next emission number to each region (R236). -/
  emitSeq : List (Nat × Nat) := []
  /-- Counters 0-3 and 6 (R322, R342), and the configured ones with their events. -/
  qwait : Word := 0
  search : Word := 0
  fsteal : Word := 0
  run : Word := 0
  cycles : Word := 0
  /-- The core's own cycles since reset, by which its timeouts end; nothing clears it. -/
  clock : Nat := 0
  evCount : Vector Word 4 := Vector.replicate 4 0
  evSel : Vector (BitVec 8) 4 := Vector.replicate 4 0
  /-- Blocks of the first-level instruction cache: physical key and 64 bytes (R197). -/
  icache : List (Nat × VWord) := []
  /-- Translations of its instruction and data TLBs (R278). -/
  itlb : List Trans := []
  dtlb : List Trans := []
deriving DecidableEq, Repr

/-- A 64-byte sector of a cluster data cache (R193). -/
structure Sector where
  key : Nat
  fill : Bool := false
  mask : BitVec 64 := 0
  writers : BitVec 16 := 0
  data : VWord := 0
  /-- The filled bytes that came as the zero of an uncorrectable word (R122). -/
  bad : BitVec 64 := 0
  /-- The moment of its fill. -/
  filled : Nat := 0
  /-- The translations it was filled or written through (R265). -/
  trans : List Trans := []
  /-- Marked first for eviction (R110). -/
  first : Bool := false
deriving DecidableEq, Repr

/-- A matrix array (R199-R214). -/
structure Array_ where
  /-- The thread that holds the lease: core and slot. -/
  holder : Option (Nat × Nat) := none
  /-- Threads parked for it, in arrival order. -/
  waiting : List (Nat × Nat) := []
  /-- Commands accepted under the lease in force (R202). -/
  used : Nat := 0
  /-- cr.mxwd.LIMIT (R202). -/
  limit : BitVec 32 := 0x00100000
  /-- Array cycles the lease has been held without a command. -/
  idle : Nat := 0
  /-- The latest holder's core (R200). -/
  prev : Option Nat := none
  /-- The configuration block in force, as its 64 bytes (R203). -/
  cfg : Option VWord := none
  /-- The configuration after every accepted command (R204). -/
  nextCfg : Option VWord := none
  /-- Tiles a0-a3: sparse FP32 codes by element index, unlisted +0. -/
  tiles : Vector (List (Nat × Lane)) 4 := Vector.replicate 4 []
  /-- The flag word of each tile (R208). -/
  flags : Vector (BitVec 5) 4 := Vector.replicate 4 0
  /-- Commands accepted and completed since reset: the timeline (R212). -/
  accepted : Nat := 0
  done : Nat := 0
deriving DecidableEq, Repr

/-- A cluster: its data cache, its array and its second-level instruction cache. -/
structure Cluster where
  sectors : List Sector := []
  array : Array_ := {}
  icache : List (Nat × VWord) := []
deriving DecidableEq, Repr

/-- A channel's power (R300). -/
inductive PowerState where
  | active | selfRefresh | powerDown
deriving DecidableEq, Repr

/-- Whom a reply goes to: the host port, the message's TYPE, its PARTITION and its SEQ (R296). -/
structure ReplyTo where
  port : Nat
  type : Nat
  part : Nat
  seq : Nat
deriving DecidableEq, Repr

/-- A reply on a host port (R296): its status and its data. -/
structure Reply where
  asker : ReplyTo
  status : Nat
  data : List Byte
deriving DecidableEq, Repr

/-- A channel that is entering a lower state (R300): whether its open regions have been made to apply. -/
structure PowerEntry where
  chan : Nat
  target : PowerState
  request : ReplyTo
  applied : Bool
deriving DecidableEq, Repr

/-- What a Litar message asks (R294-R300). R296 gives the header and no body's layout: the bodies are as the firmware
reads them (log 14). -/
inductive LitarBody where
  /-- The next part of the firmware image, which comes as a series of messages; the code that its firmware writes to HBM, by
  key; and the data images that it delivers: a core, an offset in its scratchpad, and bytes. -/
  | boot (image : List Byte) (code : List (Nat × List Byte)) (data : List (Nat × Nat × List Byte))
  /-- A graph launch: the die, the descriptor's address, the tuple and the address space it is launched in. -/
  | launch (die : Nat) (desc lo hi : Word) (asid root : Nat) (priv : Bool)
  /-- Page-table bytes by key, and a remote device's set of links. -/
  | map (tables : List (Nat × List Byte)) (devices : List (Nat × List Nat))
  /-- Bytes to the device at a key, or a number of bytes from it. -/
  | copyIn (key : Nat) (data : List Byte)
  | copyOut (key n : Nat)
  /-- The capability records. -/
  | query
  | quote (nonce : Vector Byte 32)
  | power (chan : Nat) (target : PowerState)
  /-- What follows a header whose TYPE is undefined. -/
  | unknown
deriving DecidableEq, Repr

/-- A Litar message: the host port it came over, its 16-byte header, and its body (R296). -/
structure Litar where
  port : Nat
  header : Vector Byte 16
  body : LitarBody
deriving DecidableEq, Repr

/-- What reaches the package from outside and has not been taken yet (R294-R297). -/
inductive HostInput where
  /-- Power-on reset. -/
  | reset
  | litar (m : Litar)
  /-- A frame of another EtherType. -/
  | foreign (port : Nat)
  /-- A priority flow control frame: it pauses or resumes priority 3. -/
  | pfc (port : Nat) (pause : Bool)
  /-- A flit on a Scedy link with its link-level sequence number; it may carry a write of a device to the package's
  memory, by key. -/
  | scedy (link seq : Nat) (write : Option (Nat × List Byte))
  /-- A link or a host port goes down. -/
  | linkDown (port : Bool) (num : Nat)
  /-- The runtime halts or resumes a partition. -/
  | debugger (part : Nat) (halt : Bool)
deriving DecidableEq, Repr

/-- How far boot has come (R294). -/
inductive BootStage where
  /-- The ROM waits for an image on the boot port. -/
  | waiting
  /-- The image is verified, and discovery packets flood the mesh. -/
  | discovering
  /-- The firmware delivers data images and waits for their acknowledgements. -/
  | delivering
  /-- The ports are open to the control protocol. -/
  | running
deriving DecidableEq, Repr

/-- A core as a save record holds it (R335), by the number of the save that wrote it. -/
structure Saved where
  num : Nat
  /-- The saved core's identifier, for its position (R336). -/
  from_ : Nat
  core : Core
  /-- The first SPUSE bytes of its scratchpad, as a little-endian number, and the full words among them. -/
  bytes : Nat
  full : List Nat
deriving DecidableEq, Repr

/-- What a partition has for itself. -/
structure Partition where
  /-- cr.rquota.FRAMES (R68), cr.econ.ETRAP (R122), cr.jcol.COLOUR (R334). -/
  rquota : BitVec 32 := 0
  etrap : Bool := false
  colour : BitVec 4 := 0
  /-- Earlier colours, latest first: the first item number that no longer carried the colour, and the colour. -/
  colours : List (Nat × BitVec 4) := []
  /-- cr.dbgc (R338). -/
  bhalt : Bool := false
  brken : Bool := false
  halted : Bool := false
  /-- cr.lex0 and cr.lex1: BASE and NUM (R355). -/
  lexBase : Vector Nat 2 := Vector.replicate 2 0
  lexNum : Vector Nat 2 := Vector.replicate 2 0
  /-- `t.new` commands performed, and handles not to be reissued yet with the count at the moment each was freed (R16, R52). -/
  newCount : Nat := 0
  freedHandles : List (Nat × Nat) := []
deriving DecidableEq, Repr

/-- The whole package. -/
structure State where
  /-- Bytes of HBM, host, devices and scratchpads, by physical key: rising, none zero (log 1). -/
  mem : List Host.Cell := []
  /-- The words whose full/empty bit is full, by key / 8, rising (R109). -/
  full : List Nat := []
  /-- Words that hold an uncorrectable error, by key / 8 (R121, R122). -/
  bad : List Nat := []
  /-- Words that hold a correctable error, by key / 8, and cached sectors with a parity error, by cluster and
  key / 64 (R121, R195). -/
  soft : List Nat := []
  parity : List (Nat × Nat) := []
  /-- Dirty words of cluster caches that hold an uncorrectable error, by cluster and key / 8 (R195). -/
  dirtyBad : List (Nat × Nat) := []
  /-- Dirty words of cluster caches that hold a correctable error, by cluster and key / 8, and instruction blocks with a
  parity error, by cache (a core, 0x1000 + a cluster, or 0x2000 + a die) and key (R121, R195). -/
  dirtySoft : List (Nat × Nat) := []
  iparity : List (Nat × Nat) := []
  /-- The cores by identifier (R248), clusters by die * 64 + cluster, and dies; one not listed is at reset. -/
  cores : List (Nat × Core) := []
  clusters : List (Nat × Cluster) := []
  dies : List (Nat × Die) := []
  /-- Everything in flight, in the order it was sent (R247). -/
  work : List Work := []
  nextId : Nat := 1
  /-- The moment counter (log 7). -/
  tick : Nat := 1
  /-- The partitions by number (R296); one not listed is at reset (log 72). -/
  partitions : List (Nat × Partition) := []
  /-- cr.cap.LIST (R298). -/
  cap : BitVec 56 := 0
  tensors : List Tensor := []
  /-- Per stack, die * 4 + stack: frames drawn so far; and frames that have returned (R67, log 9). -/
  frameNext : List (Nat × Nat) := []
  freeFrames : List Nat := []
  regions : List Region := []
  phraseLeases : List PhraseLease := []
  /-- The channels whose phrase unit has run a lease run last: it alternates (R329). -/
  phraseTurn : List Nat := []
  phraseReqs : List PhraseReq := []
  /-- Forwarding entries of migrated frames: old key, new key, size (R281). -/
  forwards : List (Nat × Nat × Nat) := []
  /-- Forwarding entries of moved cores (R337), and, for restored cores, where messages and items for their identifier
  go (R336). -/
  moved : List (Nat × Nat) := []
  restored : List (Nat × Nat) := []
  /-- Power states of channels that are not ACTIVE, and entries to a lower state in progress (R300). -/
  power : List (Nat × PowerState) := []
  entering : List PowerEntry := []
  /-- Outside requests not taken yet, replies sent, and host ports whose priority 3 is paused (R296). -/
  inputs : List HostInput := []
  replies : List Reply := []
  paused : List Nat := []
  /-- Replies that wait for their port's priority 3. -/
  outbox : List Reply := []
  /-- Per Scedy link, how many flits have been delivered (R297). -/
  flits : List (Nat × Nat) := []
  /-- Boot: its stage, its port, the coordinates that tiles took from discovery packets, and the cores whose image
  acknowledgements are outstanding (R294). -/
  boot : BootStage := .waiting
  bootPort : Nat := 0
  /-- Port 0 has had a link since reset. -/
  linked0 : Bool := true
  /-- The parts of the firmware image received so far. -/
  bootImage : List Byte := []
  coords : List (Nat × Int × Int) := []
  awaiting : List Nat := []
  /-- Whom the BOOT reply goes to, and what the firmware delivers in step 5 (R294). -/
  bootReply : ReplyTo := ⟨0, 0, 0, 0⟩
  bootCode : List (Nat × List Byte) := []
  bootData : List (Nat × Nat × List Byte) := []
  /-- The capability list's bytes and the key of the frames that hold them, once step 6 has written cr.cap (R298). -/
  capRecords : List Byte := []
  capFrame : Option Nat := none
  /-- The firmware record: VERSION, the digest and the identity's public key (R295, R298). -/
  version : Nat := 0
  digest : List Byte := []
  /-- Fuses: the four key slots, none for a revoked one, and the least version (R295). -/
  fuses : Vector (Option (List Byte)) 4 := Vector.replicate 4 none
  minVersion : Nat := 0
  /-- Save records written (R335), latest first. -/
  saves : List Saved := []
  /-- The part: fused-off cores by die, cluster and physical position, the absent cores by identifier that the firmware's
  table gives for them, and the channels, links and host ports that are not live (R292, R293, R301). -/
  fused : List Nat := []
  absent : List Nat := []
  deadChannels : List Nat := []
  deadLinks : List Nat := []
  deadPorts : List Nat := []
  /-- How the part is divided: the partition of each core; one not listed lies in partition 0 (log 72). -/
  partitionOf : List (Nat × Nat) := []
  /-- How many messages of a core toward one destination its buffers hold (R236, R260, R318). -/
  bufCap : Nat := 64
  /-- The set of links of each remote device (R297). -/
  devices : List (Nat × List Nat) := []
  /-- The thread the next `exec` acts for (log 4). -/
  curCore : Nat := 0
  curSlot : Nat := 0
  /-- The word is the C-class word of a pair. -/
  inPair : Bool := false
  /-- The thread as it stood before its pair, while the A-class word of the pair acts. -/
  snap : Option Thread := none
  last : IssueResult := .completed
  /-- The choices still to be made, and the core whose turn is next (log 5). -/
  sched : List Nat := []
  turn : Nat := 0
  /-- How many free values have been drawn (log 6). -/
  freeCtr : Nat := 0
deriving DecidableEq, Repr

/-- The machine right after power-on reset: every field at the value its declaration gives. -/
def State.reset : State := {}

end Sys2Proof.Machine
end

