-- ==== Sys2Proof/Machine/Ops.lean ====
section
/-! DEFINITION. The named operations over the state: choices and free values, threads and cores, memory bytes,
items in flight, messages, and the three ways an instruction can end: it completes, parks, or takes an exception. -/

set_option Elab.async false

namespace Sys2Proof.Machine

open Sys2Proof

/-- What a meaning answers. -/
abbrev Out := Host.Outcome State Fault Refusal

/-! ## Choices and free values -/

/-- Takes the next choice among n, 0 when none is scripted: which of the behaviours the manual allows is taken
(log 5). -/
def State.choose (s : State) (n : Nat) : Nat × State :=
  match s.sched with
  | [] => (0, s)
  | c :: r => (if n = 0 then 0 else c % n, { s with sched := r })

/-- Draws the next free value, for a value the manual leaves open (log 6). -/
def State.draw (s : State) : Nat × State := (Config.freeNat s.freeCtr, { s with freeCtr := s.freeCtr + 1 })

/-! ## Cores, clusters, dies and threads -/

/-- The core of an identifier (R248). -/
def State.core (s : State) (c : Nat) : Core := sget s.cores c {}

/-- Replaces a core. -/
def State.setCore (s : State) (c : Nat) (x : Core) : State := { s with cores := sset s.cores c x }

/-- The cluster numbered die * 64 + cluster. -/
def State.cluster (s : State) (c : Nat) : Cluster := sget s.clusters c {}

/-- Replaces a cluster. -/
def State.setCluster (s : State) (c : Nat) (x : Cluster) : State := { s with clusters := sset s.clusters c x }

/-- A die. -/
def State.die (s : State) (d : Nat) : Die := sget s.dies d {}

/-- Replaces a die. -/
def State.setDie (s : State) (d : Nat) (x : Die) : State := { s with dies := sset s.dies d x }

/-- The die of a core identifier (R248). -/
def dieOf (core : Nat) : Nat := core / 1024

/-- The cluster, die * 64 + cluster, of a core identifier. -/
def clusterOf (core : Nat) : Nat := core / 16

/-- The position of a core in its cluster. -/
def posOf (core : Nat) : Nat := core % 16

/-- The core is present on this part (R293). -/
def State.present (s : State) (core : Nat) : Bool := core < 2048 && !s.absent.contains core

/-- The cluster has a live core (R293). -/
def State.clusterPresent (s : State) (cl : Nat) : Bool := (List.range 16).any (fun p => s.present (cl * 16 + p))

/-! ## Partitions (log 72) -/

/-- The partition of a number. -/
def State.partition (s : State) (p : Nat) : Partition := sget s.partitions p {}

/-- Replaces a partition. -/
def State.setPartition (s : State) (p : Nat) (x : Partition) : State := { s with partitions := sset s.partitions p x }

/-- The partition that a core lies in. -/
def State.partOf (s : State) (core : Nat) : Nat := sget s.partitionOf core 0

/-- What a core's partition has. -/
def State.partAt (s : State) (core : Nat) : Partition := s.partition (s.partOf core)

/-- Replaces what a core's partition has. -/
def State.setPartAt (s : State) (core : Nat) (x : Partition) : State := s.setPartition (s.partOf core) x

/-- A core's partition is halted (R338). -/
def State.halted (s : State) (core : Nat) : Bool := (s.partAt core).halted

/-- A core's partition traps errors (R122). -/
def State.etrap (s : State) (core : Nat) : Bool := (s.partAt core).etrap

/-- The other core is present in a core's partition (R261, R333, R360). -/
def State.inPartition (s : State) (core other : Nat) : Bool := s.present other && s.partOf other == s.partOf core

/-- A core of the cluster is present in a core's partition. -/
def State.clusterInPartition (s : State) (core cl : Nat) : Bool := (List.range 16).any (fun p => s.inPartition core (cl * 16 + p))

/-- The number of contexts of a mode (R129). -/
def contexts (mode : Nat) : Nat := if mode = 1 then 8 else if mode = 2 then 4 else 16

/-- The number of vector registers of a context (R129, R32). -/
def vectorRegs (mode : Nat) : Nat := if mode = 1 then 16 else if mode = 2 then 32 else 8

/-- Slot t of a core. -/
def Core.thread (c : Core) (t : Nat) : Thread := vget c.threads t {}

/-- Replaces slot t of a core. -/
def Core.setThread (c : Core) (t : Nat) (x : Thread) : Core := { c with threads := vset c.threads t x }

/-- Slot t of core c. -/
def State.threadAt (s : State) (c t : Nat) : Thread := (s.core c).thread t

/-- Replaces slot t of core c. -/
def State.setThreadAt (s : State) (c t : Nat) (x : Thread) : State := s.setCore c ((s.core c).setThread t x)

/-- The core of the thread that acts. -/
def State.me (s : State) : Core := s.core s.curCore

/-- The thread that acts. -/
def State.thread (s : State) : Thread := s.threadAt s.curCore s.curSlot

/-- Replaces the thread that acts. -/
def State.setThread (s : State) (t : Thread) : State := s.setThreadAt s.curCore s.curSlot t

/-- Changes the core of the thread that acts. -/
def State.setMe (s : State) (c : Core) : State := s.setCore s.curCore c

/-- The thread as its sources are read: both words of a pair read before either writes (R8, R22). -/
def State.src (s : State) : Thread := s.snap.getD s.thread

/-- The address of the instruction, or of its pair (R22). -/
def State.pc (s : State) : Word := s.src.pc

/-- The address after the instruction, or after its pair. -/
def State.nextPc (s : State) : Word := s.pc + (if s.inPair || s.snap.isSome then 8 else 4)

/-- The thread may issue privileged instructions (R114). -/
def State.privileged (s : State) : Bool := s.src.priv || s.src.hm

/-! ## Memory bytes -/

/-- The byte at a key: the listed one, else zero (log 1). -/
def memGet : List Host.Cell → Nat → Byte
  | [], _ => 0
  | (k, b) :: r, a => if k = a then b else if a < k then 0 else memGet r a

/-- Writes a byte and keeps the list in its canonical form: keys rising, no zero byte listed. -/
def memSet : List Host.Cell → Nat → Byte → List Host.Cell
  | [], a, x => if x = 0 then [] else [(a, x)]
  | (k, b) :: r, a, x =>
    if a < k then (if x = 0 then (k, b) :: r else (a, x) :: (k, b) :: r)
    else if a = k then (if x = 0 then r else (a, x) :: r)
    else (k, b) :: memSet r a x

/-- Every key of the list is above a. -/
def keysAbove (a : Nat) : List Host.Cell → Bool
  | [] => true
  | (k, _) :: r => decide (a < k) && keysAbove a r

/-- The canonical form of memory: keys strictly rising and no byte equal to what an unlisted one reads as. -/
def Memory.wf : List Host.Cell → Bool
  | [] => true
  | (k, b) :: r => keysAbove k r && b != 0 && Memory.wf r

/-- The n bytes from a key, as a little-endian number (R5). -/
def memNat (m : List Host.Cell) (key : Nat) : Nat → Nat
  | 0 => 0
  | n + 1 => (memGet m key).toNat + 256 * memNat m (key + 1) n

/-- Writes the bits of `data` that `mask` holds into the n bytes from a key (R250). -/
def memWrite (m : List Host.Cell) (key data mask : Nat) : Nat → List Host.Cell
  | 0 => m
  | n + 1 =>
    let d := BitVec.ofNat 8 data
    let k := BitVec.ofNat 8 mask
    memWrite (memSet m key ((memGet m key &&& ~~~k) ||| (d &&& k))) (key + 1) (data / 256) (mask / 256) n

/-- The mask of n whole bytes. -/
def bytesMask (n : Nat) : Nat := 2 ^ (8 * n) - 1

/-- Inserts a number into a rising list. -/
def insertNat (a : Nat) : List Nat → List Nat
  | [] => [a]
  | b :: r => if a < b then a :: b :: r else if a = b then b :: r else b :: insertNat a r

/-! ## Items in flight -/

/-- Adds an item behind those in flight. -/
def State.addWork (s : State) (w : Work) : State :=
  { s with work := s.work ++ [{ w with id := s.nextId }], nextId := s.nextId + 1 }

/-- The item is one of the given thread. -/
def Work.of (w : Work) (core slot : Nat) : Bool := w.core == core && w.slot == slot

/-- The item is one of w's thread that issued before it (R145). -/
def Work.issuedBefore (x w : Work) : Bool := x.of w.core w.slot && decide (x.stamp < w.stamp)

/-- The acquires of a thread that have not been performed (R109, R327). -/
def State.acquires (s : State) (core slot : Nat) : List Nat :=
  (s.work.filter (fun w => w.of core slot && w.acquire)).map (·.id)

/-- The item is an access, which no acquire before it may find performed already (R109, R251). -/
def Body.accesses : Body → Bool
  | .load .. | .store .. | .fe .. | .amo .. | .bar .. | .fut .. | .monArm .. => true
  | _ => false

/-- An item of the thread that acts; an access waits for the thread's acquires (R109). -/
def State.item (s : State) (home : Nat) (deps : List Nat) (acquire : Bool) (body : Body) : Work :=
  let before := if body.accesses then (s.acquires s.curCore s.curSlot).filter (fun d => !deps.contains d) else []
  ⟨0, s.curCore, s.curSlot, home, deps ++ before, s.tick, s.pc, acquire, none, none, .clean, [], body⟩

/-- Sends an item of the thread that acts. -/
def State.send (s : State) (home : Nat) (deps : List Nat) (acquire : Bool) (body : Body) : State :=
  s.addWork (s.item home deps acquire body)

/-- The item of a number. -/
def State.findWork (s : State) (id : Nat) : Option Work := s.work.find? (fun w => w.id == id)

/-- Removes an item. -/
def State.dropWork (s : State) (id : Nat) : State := { s with work := s.work.filter (fun w => w.id != id) }

/-- Replaces an item where it stands. -/
def State.replaceWork (s : State) (x : Work) : State :=
  { s with work := s.work.map (fun w => if w.id = x.id then x else w) }

/-- Every item named has left. -/
def State.gone (s : State) (ids : List Nat) : Bool := ids.all (fun d => (s.findWork d).isNone)

/-- The item carries a result back to a register or a queue entry, one that is not discarded (R22, R24). -/
def Work.isResult (w : Work) : Bool :=
  match w.body with
  | .load (dst := d) .. | .ret (dst := d) .. | .amo (dst := d) .. | .flush (dst := d) .. | .upQuery (dst := d) .. |
    .tlRd (dst := d) .. | .notify (dst := d) .. | .launch (dst := d) .. => d != .dropped
  | .fe op _ d _ => (op == .ldFe || op == .ldFf) && d != .dropped
  | .fut op .. => op == 1 || op == 4 || op == 5
  | .handle (.q _ _ d _) _ => d != some .dropped
  | _ => false

/-- The item with its destination changed. -/
def Work.mapDst (w : Work) (f : Dst → Dst) : Work :=
  { w with body := match w.body with
      | .load p g l b d e => .load p g l b (f d) e
      | .ret d v b g ts => .ret (f d) v b g ts
      | .fe op a d x => .fe op a (f d) x
      | .amo op a d x e => .amo op a (f d) x e
      | .flush sid c n d => .flush sid c n (f d)
      | .upQuery sid c x g a d => .upQuery sid c x g a (f d)
      | .tlRd k i d => .tlRd k i (f d)
      | .notify g r x d => .notify g r x (f d)
      | .launch di de lo hi a r p d => .launch di de lo hi a r p (f d)
      | .handle (.q h sel d ops) k => .handle (.q h sel (d.map f) ops) k
      | b => b }

/-- Results of a thread on their way are cancelled, but for queue entries: its slot starts afresh. -/
def State.cancelResults (s : State) (core slot : Nat) : State :=
  { s with work := s.work.map (fun w =>
      if w.of core slot then w.mapDst (fun d => match d with | .q k n => .q k n | _ => .dropped) else w) }

/-- A slot is emptied: what its thread has in flight is that thread's still, and reaches no later thread of the slot (R60). -/
def State.detach (s : State) (core slot : Nat) : State :=
  { s with work := s.work.map (fun w => if w.of core slot then { w with slot := 32 + slot } else w) }

/-- The thread has a long-latency result outstanding (R24, R25). -/
def State.outstanding (s : State) (core slot : Nat) : Bool := s.work.any (fun w => w.of core slot && w.isResult)

/-- The home number of a core's mailbox. -/
def mailHome (core : Nat) : Nat := 0x50000 + core

/-- A source's items to one home keep their order (R247). -/
def mailMessage (s : State) (core slot dest : Nat) (m : Msg) : Work :=
  ⟨0, core, slot, mailHome dest, [], s.tick, 0, false, none, none, .clean, [], .msg dest m⟩

/-! ## How an instruction ends -/

/-- The instruction completes: its thread goes on at the next address, unless it is the A-class word of a pair,
whose C-class word has set the address already (R22). -/
def State.complete (s : State) : State :=
  let t := s.thread
  let t := { t with pend := .none, slot := .ready, popped := [], promised := [], sources := none }
  let t := if s.snap.isSome then t else { t with pc := s.nextPc }
  { s.setThread t with last := .completed }

/-- The instruction completes and the thread goes on at `target` (R102-R105). -/
def State.jump (s : State) (target : Word) : State :=
  let t := { s.thread with pend := .none, slot := .ready, popped := [], promised := [], sources := none, pc := target }
  { s.setThread t with last := .completed }

/-- The instruction cannot issue: its thread parks and tries the same instruction again (R132). -/
def State.parkWith (s : State) (p : Pend) : State :=
  { s.setThread { s.thread with slot := .parked, pend := p } with last := .parked }

/-- The instruction parks with the continuation it had. -/
def State.park (s : State) : State := s.parkWith s.thread.pend

/-- A lease held by a thread ends (R201). -/
def State.endLease (s : State) (core slot : Nat) : State :=
  let cl := s.cluster (clusterOf core)
  if cl.array.holder = some (core, slot) then s.setCluster (clusterOf core) { cl with array := { cl.array with holder := none } }
  else s

/-- The double fault (R117): the thread leaves the rotation and its die's supervisor is told the address of the instruction
that raised it, or cr.tpc where the trap is the first. -/
def State.doubleFault (s : State) (c : Nat) (at_ : Word) : State :=
  let t := { s.thread with cause2 := BitVec.ofNat 7 c, slot := .halted, competes := false, pend := .none,
                           pendTrap := none, latch := [] }
  let low : Nat := 0x70 + t.cause.toNat * 2 ^ 8 + c % 128 * 2 ^ 16 + s.curSlot * 2 ^ 24 +
    s.curCore % 1024 * 2 ^ 32
  let m : Msg := ⟨BitVec.ofNat 64 low, if c = 0 then t.tpc else at_⟩
  let s := (s.setThread t).endLease s.curCore s.curSlot
  s.addWork (mailMessage s s.curCore s.curSlot (dieOf s.curCore * 1024) m)

/-- Puts queue entries, the latest popped first, back at the front of their queues. -/
def Core.putBack (c : Core) (l : List (Nat × QEntry)) : Core :=
  { c with queues := l.foldl (fun qs p => vset qs p.1 (p.2 :: vget qs p.1 [])) c.queues }

/-- The core without the queue entries named, each by its queue and its number. -/
def Core.unreserve (c : Core) (l : List (Nat × Nat)) : Core :=
  { c with queues := l.foldl (fun qs p => vset qs p.1 ((vget qs p.1 []).filter (fun e => e.num != p.2))) c.queues }

/-- An error that the instruction at the thread's pc met in what it read at issue, and that is taken after it (R122). -/
def Thread.ownError (t : Thread) : Bool := match t.errTrap with | some e => e.2.2 && e.2.1 == t.pc | none => false

/-- An error of the thread is due: its own instruction's stands until that instruction has completed (R122). -/
def Thread.errDue (t : Thread) : Bool := t.errTrap.isSome && !t.ownError

/-- Puts back what the acting thread's instruction popped, and gives up the entries that it took for what it was to push: a trapping
instruction pops and pushes nothing (R31). An error that it met in what it read goes with it. -/
def State.unpop (s : State) : State :=
  let t := s.thread
  (s.setMe ((s.me.unreserve t.promised).putBack t.popped)).setThread
    { t with popped := [], promised := [], sources := none, errTrap := if t.ownError then none else t.errTrap }

/-- Taking an exception (R115), raised by the instruction at `at_`: the first trap's registers are latched with `pc` in
cr.tpc, the thread enters handler mode and goes on at cr.tvec; with a trap still unread, or no handler, it is a double
fault. -/
def State.trapEntry (s : State) (at_ pc : Word) (cause : Nat) (taddr tinfo : Word) : State :=
  let t := s.thread
  if t.unread then s.doubleFault cause at_
  else
    let t := { t with cause := BitVec.ofNat 7 cause, tpc := pc, taddr := taddr, tinfo := tinfo, pend := .none,
                      pendTrap := none, latch := [] }
    if t.tvec = 0 then (s.setThread t).doubleFault 0 at_
    else s.setThread { t with phm := t.hm, hm := true, unread := true, pc := t.tvec, slot := .ready }

/-- An exception is decided for the instruction being issued, with `pc` for cr.tpc: it is taken at once, or, because entry
behaves as marked, when the thread's outstanding results have been written (R25, R115). -/
def State.trapAt (s : State) (pc : Word) (cause : Nat) (taddr tinfo : Word) : State :=
  let at_ := s.pc
  let s := if s.thread.popped.isEmpty && s.thread.promised.isEmpty && s.thread.sources.isNone && !s.thread.ownError then s else s.unpop
  let s' := if s.outstanding s.curCore s.curSlot then
      s.setThread { s.thread with slot := .parked, pendTrap := some ⟨cause, taddr, tinfo, pc, at_⟩ }
    else s.trapEntry at_ pc cause taddr tinfo
  { s' with last := .trapped cause taddr tinfo }

/-- The state with the acting thread and its core's queues as they stood in another: what an instruction read stays read, its errors
counted (R121, R122). -/
def State.backTo (s s0 : State) : State := (s.setMe { s.me with queues := s0.me.queues }).setThread s0.thread

/-- The state that the trap of an instruction which has read operands at issue starts from: as before it, but for the errors that the reads
met, which stay counted, corrected and repaired (R121, R122, R186). -/
def State.errorsOf (s s0 : State) : State :=
  if s.bad = s0.bad ∧ s.soft = s0.soft ∧ s.dirtySoft = s0.dirtySoft ∧ s.parity = s0.parity ∧ s.me.unc = s0.me.unc then s0 else s.backTo s0

/-- The state in which an instruction that has read operands at issue since the state s0 parks with what it read: an error that it met is
still to be taken after it. -/
def State.readFrom (s s0 : State) : State :=
  let x := s.errorsOf s0
  if s.thread.errTrap = s0.thread.errTrap then x else x.setThread { x.thread with errTrap := s.thread.errTrap }

/-- Trap(cause) of the pseudocode (R10): the instruction has no effect but trap entry. -/
def State.trap (s : State) (cause : Nat) (taddr : Word) (tinfo : Word := 0) : State := s.trapAt s.pc cause taddr tinfo

/-- The trap of an instruction that has read operands at issue since the state s0. -/
def State.trapFrom (s s0 : State) (cause : Nat) (taddr : Word) (tinfo : Word := 0) : State := (s.errorsOf s0).trap cause taddr tinfo

/-- The return from an exception (R124), its checks passed: to `target` with the status that trap entry saved. -/
def State.trapReturn (s : State) (target : Word) : State :=
  let t := s.thread
  let t := if t.hm then { t with hm := t.phm } else t
  (s.setThread { t with phm := false, unread := false }).jump target

/-- A privileged instruction of a thread without privilege traps with 0x04 (R35). -/
def needPrivilege (s : State) (k : State → Out) : Out := if s.privileged then k s else .next (s.trap 0x04 0)

end Sys2Proof.Machine
end

