-- ==== Sys2Proof/Machine/Operands.lean ====
section
/-! DEFINITION. Every operand form: scalar, vector and mask registers, the constant registers, queue pops and
pushes, and results that return later (R29-R32, R139-R141). -/

set_option Elab.async false

namespace Sys2Proof.Machine

open Sys2Proof

/-- The queue a queue code names. -/
def queueOf (f : Opd) : Nat := f.toNat - 32

/-- Queue k of a core. -/
def Core.queue (c : Core) (k : Nat) : List QEntry := vget c.queues k []

/-- Byte k of a register that holds one byte per queue. -/
def queueByte (x : Word) (k : Nat) : Nat := bits x.toNat (8 * k + 7) (8 * k)

/-- The most entries queue k may hold: 0 means 256 (R140). -/
def Core.cap (c : Core) (k : Nat) : Nat := if queueByte c.qcap k = 0 then 256 else queueByte c.qcap k

/-- The entries guaranteed to queue k; a minimum above the cap counts as the cap (R140). -/
def Core.qmin' (c : Core) (k : Nat) : Nat := min (queueByte c.qmin k) (c.cap k)

/-- The pool entries that the deques hold (R141, R318); reserve entries lie outside the pool (R320). -/
def Core.dequeEntries (c : Core) : Nat :=
  (c.deques.map (fun d => (d.items.filter (fun i => !i.reserve)).length)).foldl (· + ·) 0

/-- The pool entries no queue or deque holds, less those kept back for queues below their minimum, when queue j
holds n j entries (R141). -/
def Core.poolRoom (c : Core) (n : Nat → Nat) : Int :=
  let held : Nat := ((List.range 8).map n).foldl (· + ·) 0 + c.dequeEntries
  let reserve : Nat := ((List.range 8).map (fun j => c.qmin' j - n j)).foldl (· + ·) 0
  (256 : Int) - (held : Int) - (reserve : Int)

/-- A push to queue k has room when queue j holds n j entries (R141, Room). -/
def Core.room (c : Core) (n : Nat → Nat) (k : Nat) : Bool :=
  decide (n k < c.cap k) && (decide (n k < c.qmin' k) || decide (1 ≤ c.poolRoom n))

/-- The pushes named, in order, all have room (R31). -/
def Core.roomFor (c : Core) (n : Nat → Nat) : List Nat → Bool
  | [] => true
  | k :: r => c.room n k && c.roomFor (fun j => if j = k then n j + 1 else n j) r

/-- The queue codes an instruction pops, in order. -/
def popsOf (us : List Use) : List Nat :=
  (us.filter (fun u => u.role == .src && u.pos != .mask && u.code.isQueue)).map (fun u => queueOf u.code)

/-- The queue codes an instruction pushes, in order. -/
def pushesOf (us : List Use) : List Nat :=
  (us.filter (fun u => u.role != .src && u.pos != .mask && u.code.isQueue)).map (fun u => queueOf u.code)

/-- The parked instruction has made its request, and that has not been answered or has been refused: it may still trap. -/
def Pend.refusable (p : Pend) : Bool := match p with | .wait 70 _ | .refused .. => true | _ => false

/-- The parked instruction has taken what it needs to go on: its request has been made, its operands are read, its queue entries popped.
One that is parked otherwise is tried afresh. The numbers are those of `Pend.wait`: 70 a request that its home may refuse, 78 and 79 a
phrase lease and an array lease, 90 cache maintenance, 91 `up.close`, 92 a `bar.wait` that its barrier holds. -/
def Pend.engaged (p : Pend) : Bool :=
  match p with
  | .wait n _ => [70, 78, 79, 90, 91, 92].contains n
  | .answered _ | .performed .. | .refused .. => true
  | .none | .deadline _ | .elapsed | .fetch _ | .item _ => false

/-- Entries of queue k that the thread's parked instruction has popped and that a trap would put back. -/
def Thread.claims (t : Thread) (k : Nat) : Nat := if t.pend.refusable then (t.popped.filter (fun p => p.1 == k)).length else 0

/-- Some thread's parked instruction may put entries back to queue k: no other pops from it meanwhile (R10, R31). -/
def Core.claimed (c : Core) (k : Nat) : Bool := c.threads.toList.any (fun t => t.claims k != 0)

/-- The entries of queue k, and those that parked instructions may put back (R31, R141). -/
def Core.occupied (c : Core) (k : Nat) : Nat :=
  (c.queue k).length + (c.threads.toList.map (fun t => t.claims k)).foldl (· + ·) 0

/-- Every queue popped holds as many arrived entries as are popped from it, and every push has room (R31, R139). -/
def Core.queuesReady (c : Core) (us : List Use) : Bool :=
  let pops := popsOf us
  (List.range 8).all (fun k =>
    let n := pops.count k
    let q := (c.queue k).take n
    n == 0 || (q.length == n && q.all (fun e => e.missing == 0) && !c.claimed k)) &&
  c.roomFor c.occupied (pushesOf us)

/-- A vector code names a register the mode does not provide (R32). -/
def Core.beyondMode (c : Core) (us : List Use) : Bool :=
  us.any (fun u => u.pos == .vector && !u.code.isQueue && vectorRegs c.mode ≤ u.code.toNat)

/-- The checks every instruction makes on its operands before its own description: registers beyond the mode
trap with 0x02 (R32, R36), and it parks until its queues are ready (R31). The trap comes first: a word whose queue is not
ready takes it without parking, and so it takes 0x04, but for the fields of `cr.set` and `cr.clr`, which are known only with the
operand (log 63). The queues of a pair are checked for both words together before either acts. -/
def withOperands (us : List Use) (s : State) (k : State → Out) : Out :=
  if s.me.beyondMode us then .next (s.trap 0x02 0)
  else if (!s.inPair && s.snap.isNone) && !s.me.queuesReady us then .next s.park
  else k s

/-- Pops the oldest entry of queue k (R139). -/
def State.pop (s : State) (k : Nat) : VWord × State :=
  match s.me.queue k with
  | [] => (0, s)
  | e :: r =>
    let s := s.setMe { s.me with queues := vset s.me.queues k r }
    (e.val, s.setThread { s.thread with popped := (k, e) :: s.thread.popped })

/-- Appends an entry to queue k that waits for a number of results, and returns its number (R139). -/
def State.append (s : State) (k missing : Nat) (x : VWord) : Nat × State :=
  (s.nextId, { s.setMe { s.me with queues := vset s.me.queues k (s.me.queue k ++ [⟨s.nextId, missing, x⟩]) } with
    nextId := s.nextId + 1 })

/-- Pushes to queue k an entry that waits for a number of results, and returns its number: a new one, or the first that the instruction
took in that queue with its request (R31, R139). -/
def State.push (s : State) (k missing : Nat) (x : VWord) : Nat × State :=
  match s.thread.promised.find? (fun p => p.1 == k) with
  | none => s.append k missing x
  | some p =>
    let q := (s.me.queue k).map (fun e => if e.num = p.2 then { e with missing := missing, val := x } else e)
    let s := s.setMe { s.me with queues := vset s.me.queues k q }
    (p.2, s.setThread { s.thread with promised := s.thread.promised.erase p })

/-- Takes the entries of queues that an instruction is to push when it completes (R31). -/
def State.reserve (s : State) (ks : List Nat) : State :=
  ks.foldl (fun s k =>
    let (n, s) := s.append k 1 0
    s.setThread { s.thread with promised := s.thread.promised ++ [(k, n)] }) s

/-- SReg(f) read: s0 reads zero, a queue code pops bytes [7:0] (R30, R31). -/
def State.readS (s : State) (f : Opd) : Word × State :=
  if f.isQueue then let (x, s) := s.pop (queueOf f); (x.setWidth 64, s)
  else if f = 0 then (0, s)
  else (vget s.src.s f.toNat 0, s)

/-- VReg(f) read. -/
def State.readV (s : State) (f : Opd) : VWord × State :=
  if f.isQueue then s.pop (queueOf f) else (vget s.src.v f.toNat 0, s)

/-- MReg(f) read: m0 has every lane enabled (R30). -/
def State.readM (s : State) (f : Opd) : MWord := if f = 0 then BitVec.allOnes 16 else vget s.src.m f.toNat 0

/-- The mask a 3-bit field names (R32). -/
def State.maskOf (s : State) (f : BitVec 3) : MWord := s.readM (f.setWidth 6)

/-- Writes a scalar register; s0 discards (R30). -/
def Thread.setS (t : Thread) (r : Nat) (x : Word) : Thread := if r = 0 then t else { t with s := vset t.s r x }

/-- The vector `old` with the lanes of a mask taken from `x` (R11). -/
def mergeLanes (mask : MWord) (x old : VWord) : VWord :=
  ofLanes ((List.range 16).map (fun i => if mask.getLsbD i then lane x i else lane old i))

/-- Writes the lanes of a mask into a vector register. -/
def Thread.setV (t : Thread) (r : Nat) (mask : MWord) (x : VWord) : Thread :=
  { t with v := vset t.v r (if mask = BitVec.allOnes 16 then x else mergeLanes mask x (vget t.v r 0)) }

/-- Writes a mask register; m0 discards (R30). -/
def Thread.setM (t : Thread) (r : Nat) (x : MWord) : Thread := if r = 0 then t else { t with m := vset t.m r x }

/-- Writes SReg(f) at once: a register, or a push of bytes [7:0] (R30, R31). -/
def State.writeS (s : State) (f : Opd) (x : Word) : State :=
  if f.isQueue then (s.push (queueOf f) 0 (x.setWidth 512)).2
  else s.setThread (s.thread.setS f.toNat x)

/-- Writes VReg(f) at once in the lanes of a mask; a queue takes the whole value. -/
def State.writeV (s : State) (f : Opd) (mask : MWord) (x : VWord) : State :=
  if f.isQueue then (s.push (queueOf f) 0 x).2 else s.setThread (s.thread.setV f.toNat mask x)

/-- Writes MReg(f) at once. -/
def State.writeM (s : State) (f : Opd) (x : MWord) : State := s.setThread (s.thread.setM f.toNat x)

/-- Takes a scalar destination for a result that returns later: a queue entry is reserved at issue (R31, R139). -/
def State.dstS (s : State) (f : Opd) : Dst × State :=
  if f.isQueue then let (n, s) := s.push (queueOf f) 1 0; (.q (queueOf f) n, s)
  else if f = 0 then (.none, s)
  else (.s f.toNat, s)

/-- Takes a vector destination for a result that returns later. -/
def State.dstV (s : State) (f : Opd) (mask : MWord) : Dst × State :=
  if f.isQueue then let (n, s) := s.push (queueOf f) 1 0; (.q (queueOf f) n, s) else (.v f.toNat mask.toNat, s)

/-- A result on its way back (R24). -/
def State.returnLater (s : State) (d : Dst) (x : VWord) (flags : BitVec 5 := 0) : State :=
  s.send 0 [] false (.ret d x none flags [])

/-- A result is long latency when a source is popped from a queue (R24). -/
def popsAny (us : List Use) : Bool := !(popsOf us).isEmpty

/-- Writes a scalar result, at once or when it returns (R24). -/
def State.resultS (s : State) (f : Opd) (x : Word) (long : Bool) : State :=
  if long then let (d, s) := s.dstS f; s.returnLater d (x.setWidth 512) else s.writeS f x

/-- Writes a vector result in the lanes of a mask, at once or when it returns. -/
def State.resultV (s : State) (f : Opd) (mask : MWord) (x : VWord) (long : Bool) : State :=
  if long then let (d, s) := s.dstV f mask; s.returnLater d x else s.writeV f mask x

/-- Writes a mask result, at once or when it returns. -/
def State.resultM (s : State) (f : Opd) (x : MWord) (long : Bool) : State :=
  if long then s.returnLater (if f = 0 then .none else .m f.toNat) (x.setWidth 512) else s.writeM f x

/-- A returned value reaches its destination (R24, R139). -/
def Core.deliver (c : Core) (slot : Nat) (d : Dst) (x : VWord) : Core :=
  match d with
  | .none | .dropped => c
  | .s r => c.setThread slot ((c.thread slot).setS r (x.setWidth 64))
  | .v r mask => c.setThread slot ((c.thread slot).setV r (BitVec.ofNat 16 mask) x)
  | .m r => c.setThread slot ((c.thread slot).setM r (x.setWidth 16))
  | .q k n =>
    { c with queues := vset c.queues k ((c.queue k).map (fun e =>
        if e.num = n then { e with missing := e.missing - 1, val := e.val ||| x } else e)) }

end Sys2Proof.Machine
end

