-- ==== Sys2Proof/Machine/Flags.lean ====
section
/-! DEFINITION. Number formats, exact values, rounding with every flag it raises, and the floating-point
operations built on them (07 R98-R101, 11 R148-R164, 12 R166-R169). -/

set_option Elab.async false

namespace Sys2Proof.Machine

open Sys2Proof

/-- The five sticky flags, in the order of cr.fflags bits [4:0]: NV, DZ, OF, UF, NX (R99). -/
abbrev FFlags := BitVec 5

/-- NV, invalid operation. -/
def fNV : FFlags := 16
/-- DZ, division by zero. -/
def fDZ : FFlags := 8
/-- OF, overflow. -/
def fOF : FFlags := 4
/-- UF, underflow. -/
def fUF : FFlags := 2
/-- NX, inexact. -/
def fNX : FFlags := 1

/-- The rounding modes (R99, R155). -/
inductive Mode where
  | rne | rtz | rup | rdn | sr
deriving DecidableEq, Repr

/-- The mode a 3-bit field codes; 5 to 7 are never held. -/
def modeOf (x : Nat) : Mode :=
  match x with
  | 1 => .rtz
  | 2 => .rup
  | 3 => .rdn
  | 4 => .sr
  | _ => .rne

/-- A value: a NaN, an infinity, or the finite number ±m × 2^e, where `sticky` says that it lies strictly between
m × 2^e and (m + 1) × 2^e in magnitude. -/
inductive Val where
  | nan (signalling : Bool)
  | inf (neg : Bool)
  | fin (neg : Bool) (m : Nat) (e : Int) (sticky : Bool)
deriving DecidableEq, Repr

/-- What a floating format has beside finite numbers (R149, R150). -/
inductive Specials where
  /-- Infinities and NaNs at the highest exponent. -/
  | ieee
  /-- One NaN per sign and no infinity: E4M3. -/
  | nanOnly
  | none
deriving DecidableEq, Repr

/-- An element format: floating with exponent bits, fraction bits and bias, or two's complement. -/
inductive Fmt where
  | float (eb mb bias : Nat) (sp : Specials)
  | int (w : Nat)
deriving DecidableEq, Repr

/-- FP32 (R149). -/
def fp32 : Fmt := .float 8 23 127 .ieee
/-- FP16. -/
def fp16 : Fmt := .float 5 10 15 .ieee
/-- BF16. -/
def bf16 : Fmt := .float 8 7 127 .ieee

/-- The element format of a code (R148). -/
def fmtOf (code : Nat) : Option Fmt :=
  match code with
  | 0x01 => some fp32
  | 0x02 => some fp16
  | 0x03 => some bf16
  | 0x05 => some (.float 4 3 7 .nanOnly)
  | 0x06 => some (.float 5 2 15 .ieee)
  | 0x07 => some (.float 2 3 1 .none)
  | 0x08 => some (.float 3 2 3 .none)
  | 0x09 => some (.float 2 1 1 .none)
  | 0x0A => some (.int 8)
  | 0x0B => some (.int 16)
  | 0x0C => some (.int 32)
  | 0x0D => some (.int 4)
  | _ => none

/-- A block-scaled family: its element code, block length and scale code (R154). -/
structure Family where
  elem : Nat
  len : Nat
  scale : Nat
deriving DecidableEq, Repr

/-- The block-scaled family of a format code (R154). -/
def familyOf (code : Nat) : Option Family :=
  match code with
  | 0x21 => some ⟨0x05, 32, 0x11⟩
  | 0x22 => some ⟨0x06, 32, 0x11⟩
  | 0x23 => some ⟨0x07, 32, 0x11⟩
  | 0x24 => some ⟨0x08, 32, 0x11⟩
  | 0x25 => some ⟨0x09, 32, 0x11⟩
  | 0x26 => some ⟨0x0A, 32, 0x11⟩
  | 0x29 => some ⟨0x05, 16, 0x12⟩
  | 0x2A => some ⟨0x07, 16, 0x12⟩
  | 0x2B => some ⟨0x08, 16, 0x12⟩
  | 0x2C => some ⟨0x09, 16, 0x12⟩
  | 0x2D => some ⟨0x0A, 16, 0x12⟩
  | 0x2E => some ⟨0x0D, 16, 0x12⟩
  | _ => none

/-- The element code behind a format code, block-scaled or not. -/
def elemCode (code : Nat) : Nat := match familyOf code with | some f => f.elem | none => code

/-- The width of an element in bits. -/
def Fmt.width : Fmt → Nat
  | .float eb mb _ _ => 1 + eb + mb
  | .int w => w

/-- The width of an element of a format code. -/
def widthOf (code : Nat) : Nat := match fmtOf (elemCode code) with | some f => f.width | none => 0

/-- The largest magnitude code of a floating format. -/
def Fmt.maxCode : Fmt → Nat
  | .float eb mb _ .ieee => (2 ^ eb - 1) * 2 ^ mb - 1
  | .float eb mb _ .nanOnly => 2 ^ (eb + mb) - 2
  | .float eb mb _ .none => 2 ^ (eb + mb) - 1
  | .int w => 2 ^ (w - 1) - 1

/-- The format has infinities. -/
def Fmt.hasInf : Fmt → Bool
  | .float _ _ _ .ieee => true
  | _ => false

/-- Decode(c, F) (R9, R149-R151). -/
def decode (f : Fmt) (c : Nat) : Val :=
  match f with
  | .int w => let x := sext c w; .fin (decide (x < 0)) x.natAbs 0 false
  | .float eb mb bias sp =>
    let neg := c.testBit (eb + mb)
    let e := bits c (eb + mb - 1) mb
    let m := c % 2 ^ mb
    if e = 0 then .fin neg m (1 - (bias : Int) - mb) false
    else if sp = .ieee ∧ e = 2 ^ eb - 1 then (if m = 0 then .inf neg else .nan (!m.testBit (mb - 1)))
    else if sp = .nanOnly ∧ e = 2 ^ eb - 1 ∧ m = 2 ^ mb - 1 then .nan false
    else .fin neg (2 ^ mb + m) ((e : Int) - bias - mb) false

/-- The sign bit of a code. -/
def signCode (f : Fmt) (neg : Bool) : Nat := if neg then 2 ^ (f.width - 1) else 0

/-- The canonical NaN code of a format that has one (R149, R150). -/
def nanCode : Fmt → Nat
  | .float eb mb _ .ieee => (2 ^ eb - 1) * 2 ^ mb + 2 ^ (mb - 1)
  | .float eb mb _ .nanOnly => 2 ^ (eb + mb) - 1
  | f => f.maxCode

/-- The number of bits of m. -/
def bitLen (m : Nat) : Nat := if m = 0 then 0 else Nat.log2 m + 1

/-- Rounds the magnitude m × 2^e to a multiple of 2^q: the multiple, and whether it is inexact. `draw` is r of
R157. A shift far below the grid is cut short, which changes no comparison. -/
def roundAt (mode : Mode) (neg : Bool) (draw m : Nat) (e : Int) (sticky : Bool) (q : Int) : Nat × Bool :=
  if q ≤ e then (m * 2 ^ (e - q).toNat, sticky)
  else
    let sh := min (q - e).toNat (bitLen m + 40)
    let n := m / 2 ^ sh
    let r := m % 2 ^ sh
    let inexact := r != 0 || sticky
    let up : Bool :=
      if !inexact then false else
      match mode with
      | .rne => decide (2 ^ sh < 2 * r) || (decide (2 * r = 2 ^ sh) && (sticky || n % 2 == 1))
      | .rtz => false
      | .rup => !neg
      | .rdn => neg
      | .sr =>
        if neg then
          let t := (2 ^ sh - r) * 2 ^ 24
          !(decide (draw < (if sticky && t % 2 ^ sh == 0 then t / 2 ^ sh - 1 else t / 2 ^ sh)))
        else decide (draw < r * 2 ^ 24 / 2 ^ sh)
    (if up then n + 1 else n, inexact)

/-- Round(x, F, mode, sat) with the draw r of an SR step: the code and the flags raised (R155-R157). DESIGN CHOICE (log 109): an integer
format is rounded stochastically past its greatest value too and clamped afterwards; that a magnitude above the greatest finite one
rounds as under RNE (R157) is taken of the floating formats alone. -/
def round (f : Fmt) (mode : Mode) (sat : Bool) (draw : Nat) (v : Val) : Nat × FFlags :=
  match f, v with
  | .int w, .nan _ => ((fun _ => (0, fNV)) w)
  | .int w, .inf neg => (if neg then 2 ^ (w - 1) else 2 ^ (w - 1) - 1, fNV)
  | .int w, .fin neg m e sticky =>
    let (n, inexact) := roundAt mode neg draw m e sticky 0
    if neg && decide (2 ^ (w - 1) < n) then (2 ^ (w - 1), fNV)
    else if !neg && decide (2 ^ (w - 1) ≤ n) then (2 ^ (w - 1) - 1, fNV)
    else (wrap (if neg then -(n : Int) else n) w, if inexact then fNX else 0)
  | .float _ _ _ sp, .nan sig =>
    (nanCode f, if sp = .none ∨ sig then fNV else 0)
  | .float .., .inf neg =>
    if f.hasInf then
      (if sat then (signCode f neg + f.maxCode, fNV) else (signCode f neg + (f.maxCode + 1), 0))
    else (signCode f neg + f.maxCode, fNV)
  | .float _ mb bias _, .fin neg m e sticky =>
    if m = 0 ∧ !sticky then (signCode f neg, 0) else
    let qmin : Int := 1 - (bias : Int) - mb
    let top : Int := (bitLen m : Int) - 1 + e
    let q := max (top - mb) qmin
    let codeAt (mode : Mode) : Int × Bool :=
      let (n, inexact) := roundAt mode neg draw m e sticky q
      (if n < 2 ^ mb then (n : Int) else (q - qmin) * 2 ^ mb + n, inexact)
    let (c1, inexact) := codeAt mode
    -- under SR a magnitude above max finite rounds as under RNE (R157)
    let (c1, inexact) :=
      let floor := (codeAt .rtz).1
      if mode = .sr ∧ ((f.maxCode : Int) < floor ∨ (floor = f.maxCode ∧ inexact)) then codeAt .rne
      else (c1, inexact)
    if (f.maxCode : Int) < c1 then
      let big := signCode f neg + f.maxCode
      let inf := signCode f neg + f.maxCode + 1
      let code :=
        if sat || !f.hasInf then big else
        match mode with
        | .rne | .sr => inf
        | .rtz => big
        | .rup => if neg then big else inf
        | .rdn => if neg then inf else big
      (code, fOF ||| fNX)
    else
      let (n2, _) := roundAt mode neg draw m e sticky (top - mb)
      let tiny := decide (top < 1 - (bias : Int)) && !(n2 == 2 ^ (mb + 1) && decide (top + 1 = 1 - (bias : Int)))
      (signCode f neg + c1.toNat, if inexact then (if tiny then fNX ||| fUF else fNX) else 0)

/-- One step of the stochastic-rounding LFSR (R157). -/
def srsStep (x : BitVec 32) : BitVec 32 :=
  let fb := x.getLsbD 31 != (x.getLsbD 21 != (x.getLsbD 1 != x.getLsbD 0))
  (x <<< 1) ||| (BitVec.ofBool fb).setWidth 32

/-- The draw r of a stepped LFSR (R157). -/
def srsDraw (x : BitVec 32) : Nat := bits x.toNat 31 8

/-- n steps: the n draws in order, and the LFSR afterwards. -/
def srsDraws (x : BitVec 32) : Nat → List Nat × BitVec 32
  | 0 => ([], x)
  | n + 1 => let y := srsStep x; let (l, z) := srsDraws y n; (srsDraw y :: l, z)

/-! ## Exact operations on values -/

/-- The value is a NaN. -/
def Val.isNan : Val → Bool
  | .nan _ => true
  | _ => false

/-- NV for a signalling NaN operand (R98). -/
def Val.sig : Val → FFlags
  | .nan true => fNV
  | _ => 0

/-- The quiet NaN. -/
def qnan : Val := .nan false

/-- A signed exact integer times a power of two. -/
def ofSigned (x : Int) (e : Int) (zeroNeg : Bool) : Val :=
  if x = 0 then .fin zeroNeg 0 0 false else .fin (decide (x < 0)) x.natAbs e false

/-- x with its sign inverted. -/
def Val.negate : Val → Val
  | .nan q => .nan q
  | .inf n => .inf (!n)
  | .fin n m e t => .fin (!n) m e t

/-- The signed significand of a finite value, scaled to exponent e0 ≤ e. -/
def scaled (neg : Bool) (m : Nat) (e e0 : Int) : Int :=
  let x : Int := (m : Int) * 2 ^ (e - e0).toNat
  if neg then -x else x

/-- x + y; an exact zero sum of unlike signs is −0 under RDN only. -/
def addV (mode : Mode) (x y : Val) : Val × FFlags :=
  match x, y with
  | .nan _, _ => (qnan, x.sig ||| y.sig)
  | _, .nan _ => (qnan, x.sig ||| y.sig)
  | .inf a, .inf b => if a = b then (.inf a, 0) else (qnan, fNV)
  | .inf a, _ => (.inf a, 0)
  | _, .inf b => (.inf b, 0)
  | .fin a m e _, .fin b n f _ =>
    let e0 := min e f
    let z := if m = 0 ∧ n = 0 ∧ a = b then a else decide (mode = .rdn)
    (ofSigned (scaled a m e e0 + scaled b n f e0) e0 z, 0)

/-- x × y. -/
def mulV (x y : Val) : Val × FFlags :=
  match x, y with
  | .nan _, _ => (qnan, x.sig ||| y.sig)
  | _, .nan _ => (qnan, x.sig ||| y.sig)
  | .inf a, .inf b => (.inf (a != b), 0)
  | .inf a, .fin b n _ _ => if n = 0 then (qnan, fNV) else (.inf (a != b), 0)
  | .fin a m _ _, .inf b => if m = 0 then (qnan, fNV) else (.inf (a != b), 0)
  | .fin a m e _, .fin b n f _ => (.fin (a != b) (m * n) (e + f) false, 0)

/-- x × y + z; ∞ × 0 raises NV even when z is NaN (R100). -/
def fmaV (mode : Mode) (x y z : Val) : Val × FFlags :=
  let (p, g) := mulV x y
  if p.isNan then (qnan, g ||| z.sig) else let (r, h) := addV mode p z; (r, g ||| h)

/-- x / y (R100). -/
def divV (x y : Val) : Val × FFlags :=
  match x, y with
  | .nan _, _ => (qnan, x.sig ||| y.sig)
  | _, .nan _ => (qnan, x.sig ||| y.sig)
  | .inf _, .inf _ => (qnan, fNV)
  | .inf a, .fin b _ _ _ => (.inf (a != b), 0)
  | .fin a _ _ _, .inf b => (.fin (a != b) 0 0 false, 0)
  | .fin a m e _, .fin b n f _ =>
    if n = 0 then (if m = 0 then (qnan, fNV) else (.inf (a != b), fDZ))
    else if m = 0 then (.fin (a != b) 0 0 false, 0)
    else
      let k := 64 + bitLen n
      let t := m * 2 ^ k
      (.fin (a != b) (t / n) (e - f - k) (t % n != 0), 0)

/-- The integer square root of n, found bit by bit from bit k - 1 down. -/
def isqrtFrom (n r : Nat) : Nat → Nat
  | 0 => r
  | k + 1 => let t := r + 2 ^ k; isqrtFrom n (if t * t ≤ n then t else r) k

/-- The integer square root. -/
def isqrt (n : Nat) : Nat := isqrtFrom n 0 (bitLen n / 2 + 1)

/-- √x; √−0 = −0 (R100). -/
def sqrtV (x : Val) : Val × FFlags :=
  match x with
  | .nan _ => (qnan, x.sig)
  | .inf neg => if neg then (qnan, fNV) else (.inf false, 0)
  | .fin neg m e _ =>
    if m = 0 then (.fin neg 0 0 false, 0)
    else if neg then (qnan, fNV)
    else
      let (m, e) := if e % 2 = 0 then (m, e) else (2 * m, e - 1)
      let n := m * 2 ^ 128
      let r := isqrt n
      (.fin false r (e / 2 - 64) (r * r != n), 0)

/-- x < y for values that are no NaN; the zeros are equal. -/
def ltV (x y : Val) : Bool :=
  match x, y with
  | .nan _, _ => false
  | _, .nan _ => false
  | .inf a, .inf b => a && !b
  | .inf a, .fin .. => a
  | .fin .., .inf b => !b
  | .fin a m e _, .fin b n f _ => let e0 := min e f; decide (scaled a m e e0 < scaled b n f e0)

/-- x = y for values that are no NaN. -/
def eqV (x y : Val) : Bool := !x.isNan && !y.isNan && !ltV x y && !ltV y x

/-- The sign of a value that is no NaN. -/
def Val.neg : Val → Bool
  | .nan _ => false
  | .inf a => a
  | .fin a .. => a

/-- fmin and fmax on codes of FP32 (R100): −0 lies below +0, one NaN gives the other operand. -/
def minmax (wantMax : Bool) (a b : Lane) : Lane × FFlags :=
  let x := decode fp32 a.toNat
  let y := decode fp32 b.toNat
  let g := x.sig ||| y.sig
  if x.isNan && y.isNan then (0x7FC00000, g)
  else if x.isNan then (b, g)
  else if y.isNan then (a, g)
  else
    let less := ltV x y || (eqV x y && x.neg && !y.neg)
    (if less != wantMax then a else b, g)

/-! ## Transcendentals, by exact intervals of rising precision (R168) -/

/-- The sum of ⌊2^p / (k 2^k)⌋ for k from j up, n terms: a lower bound of 2^p ln 2, short by at most n + 1. -/
def ln2Sum (p j : Nat) : Nat → Nat
  | 0 => 0
  | n + 1 => 2 ^ p / (j * 2 ^ j) + ln2Sum p (j + 1) n

/-- Bounds of 2^p ln 2. -/
def ln2Bounds (p : Nat) : Nat × Nat := let x := ln2Sum p 1 p; (x, x + p + 2)

/-- The terms of e^t for 2^p t, from term number k with value `term`, rounded down or up. -/
def expTerms (up : Bool) (p t term k : Nat) : Nat → Nat
  | 0 => if up then 2 * term + 2 else 0
  | n + 1 =>
    let x := term * t
    let next := if up then (x + k * 2 ^ p - 1) / (k * 2 ^ p) else x / (k * 2 ^ p)
    term + expTerms up p t next (k + 1) n

/-- Bounds of 2^p 2^f for f = num / 2^den in [0, 1). -/
def exp2Bounds (p num den : Nat) : Nat × Nat :=
  let (l, h) := ln2Bounds p
  let lo := num * l / 2 ^ den
  let hi := (num * h + 2 ^ den - 1) / 2 ^ den
  (expTerms false p lo (2 ^ p) 1 (p / 3 + 8), expTerms true p hi (2 ^ p) 1 (p / 3 + 8))

/-- The odd terms of atanh z for 2^p z, from exponent k, rounded down or up. -/
def atanhTerms (up : Bool) (p z2 power k : Nat) : Nat → Nat
  | 0 => if up then 2 * power + 2 else 0
  | n + 1 =>
    let term := if up then (power + k - 1) / k else power / k
    let x := power * z2
    let next := if up then (x + 2 ^ p - 1) / 2 ^ p else x / 2 ^ p
    term + atanhTerms up p z2 next (k + 2) n

/-- Bounds of 2^p log2 y for y = m / 2^k in [1, 2). -/
def log2Bounds (p m k : Nat) : Nat × Nat :=
  let num := (m - 2 ^ k) * 2 ^ p
  let den := m + 2 ^ k
  let zl := num / den
  let zh := (num + den - 1) / den
  let ll := 2 * atanhTerms false p (zl * zl / 2 ^ p) zl 1 (p / 3 + 8)
  let lh := 2 * atanhTerms true p ((zh * zh + 2 ^ p - 1) / 2 ^ p) zh 1 (p / 3 + 8)
  let (nl, nh) := ln2Bounds p
  (ll * 2 ^ p / nh, (lh * 2 ^ p + nl - 1) / nl)

/-- The first precision at which both ends of the interval round alike; the value is its lower end, inexact. -/
def firstStable (f : Nat → Val × Val) : List Nat → Val
  | [] => qnan
  | [p] => (f p).1
  | p :: r =>
    let (x, y) := f p
    if round fp32 .rne false 0 x = round fp32 .rne false 0 y then x else firstStable f r

/-- The precisions tried, in bits. -/
def precisions : List Nat := [96, 192, 384, 768]

/-- 2^x (R168). -/
def exp2V (x : Val) : Val × FFlags :=
  match x with
  | .nan _ => (qnan, x.sig)
  | .inf neg => (if neg then .fin false 0 0 false else .inf false, 0)
  | .fin neg m e _ =>
    if m = 0 then (.fin false 1 0 false, 0)
    else if (bitLen m : Int) + e ≤ -25 then
      (if neg then .fin false (2 ^ 64 - 1) (-64) true else .fin false (2 ^ 64) (-64) true, 0)
    else if 10 < (bitLen m : Int) + e then
      (if neg then .fin false 1 (-2000) true else .fin false 1 2000 true, 0)
    else
      let den := (-e).toNat
      let y : Int := if 0 ≤ e then scaled neg m e 0 else scaled neg m 0 0
      let whole := y / 2 ^ den
      let num := (y % 2 ^ den).toNat
      if num = 0 then (.fin false 1 whole false, 0)
      else
        (firstStable (fun p => let (l, h) := exp2Bounds p num den
          (.fin false l (whole - p) true, .fin false h (whole - p) true)) precisions, 0)

/-- log2 x (R168). -/
def log2V (x : Val) : Val × FFlags :=
  match x with
  | .nan _ => (qnan, x.sig)
  | .inf neg => if neg then (qnan, fNV) else (.inf false, 0)
  | .fin neg m e _ =>
    if m = 0 then (.inf true, fDZ)
    else if neg then (qnan, fNV)
    else
      let k := bitLen m - 1
      let whole : Int := (k : Int) + e
      if m = 2 ^ k then (ofSigned whole 0 false, 0)
      else
        (firstStable (fun p =>
          let (l, h) := log2Bounds p m k
          let a : Int := whole * 2 ^ p + l
          let b : Int := whole * 2 ^ p + h
          if whole < 0 then (.fin true (-b).toNat (-(p : Int)) true, .fin true (-a).toNat (-(p : Int)) true)
          else (.fin false a.toNat (-(p : Int)) true, .fin false b.toNat (-(p : Int)) true)) precisions, 0)

/-- 1 / x (R168). -/
def rcpV (x : Val) : Val × FFlags :=
  match x with
  | .nan _ => (qnan, x.sig)
  | .inf neg => (.fin neg 0 0 false, 0)
  | .fin neg m _ _ => if m = 0 then (.inf neg, fDZ) else divV (.fin false 1 0 false) x

/-- 1 / √x (R168). -/
def rsqV (x : Val) : Val × FFlags :=
  match x with
  | .nan _ => (qnan, x.sig)
  | .inf neg => if neg then (qnan, fNV) else (.fin false 0 0 false, 0)
  | .fin neg m e _ =>
    if m = 0 then (.inf neg, fDZ)
    else if neg then (qnan, fNV)
    else
      let (m, e) := if e % 2 = 0 then (m, e) else (2 * m, e - 1)
      let n := 2 ^ 256
      let r := isqrt (n / m)
      (.fin false r (-(e / 2) - 128) (r * r * m != n), 0)

/-! ## Flags reach cr.fflags, or trap -/

/-- An enabled flag is among those raised (R99). -/
def State.flagTraps (s : State) (g : FFlags) : Bool := s.src.enables &&& g != 0

/-- ORs raised flags into cr.fflags (R99). -/
def Thread.addFlags (t : Thread) (g : FFlags) : Thread := { t with fflags := t.fflags ||| g }

/-- SetFlag for every flag raised: with one enabled the instruction traps with 0x30 and cr.tinfo = the flags
raised, and has no other effect; else they are ORed in and it goes on (R99, R166). `s0` is the state before the
instruction. -/
def withFlags (s0 s : State) (g : FFlags) (k : State → Out) : Out :=
  if s0.flagTraps g then .next (s0.trap 0x30 0 (g.setWidth 64))
  else k (s.setThread (s.thread.addFlags g))

/-- The draws of n SR steps of the acting thread (R157). -/
def State.srSteps (s : State) (n : Nat) : List Nat × State :=
  let (l, x) := srsDraws s.thread.srs n
  (l, s.setThread { s.thread with srs := x })

/-- The draws for n elements rounded under a mode: the LFSR steps under SR only. -/
def State.drawsFor (s : State) (mode : Mode) (n : Nat) : List Nat × State :=
  if mode = .sr then s.srSteps n else ([], s)

/-- cr.fflags.RM of the acting thread. -/
def State.mode (s : State) : Mode := modeOf s.src.rm.toNat

end Sys2Proof.Machine
end

