-- ==== Sys2Proof/Machine/Integer.lean ====
section
/-! DEFINITION. The scalar integer instructions (R93-R97). -/

set_option Elab.async false

namespace Sys2Proof.Machine

open Sys2Proof

/-- Two scalar sources and one scalar destination; `long` for a result that is long latency by itself (R24). -/
def binary (d a b : Opd) (long : Bool) (f : Word → Word → Word) (s : State) : Out :=
  let us : List Use := [⟨.scalar, .dst, d⟩, ⟨.scalar, .src, a⟩, ⟨.scalar, .src, b⟩]
  withOperands us s fun s =>
    let (x, s) := s.readS a
    let (y, s) := s.readS b
    .next (s.resultS d (f x y) (long || popsAny us)).complete

/-- One scalar source and one scalar destination. -/
def unary (d a : Opd) (f : Word → Word) (s : State) : Out :=
  let us : List Use := [⟨.scalar, .dst, d⟩, ⟨.scalar, .src, a⟩]
  withOperands us s fun s =>
    let (x, s) := s.readS a
    .next (s.resultS d (f x) (popsAny us)).complete

/-- Bits(B, 5, 0), the shift amount (R93). -/
def shiftAmount (y : Word) : Nat := y.toNat % 64

/-- 1 where the condition holds, else 0. -/
def ofCond (c : Bool) : Word := if c then 1 else 0

/-- The smaller of two as signed numbers. -/
def smin (x y : Word) : Word := if x.toInt ≤ y.toInt then x else y

/-- The larger of two as signed numbers. -/
def smax (x y : Word) : Word := if x.toInt ≤ y.toInt then y else x

/-- The smaller of two, unsigned. -/
def umin (x y : Word) : Word := if x.toNat ≤ y.toNat then x else y

/-- The larger of two, unsigned. -/
def umax (x y : Word) : Word := if x.toNat ≤ y.toNat then y else x

/-- Leading zero bits of the low n bits of x, n when they are all zero. -/
def leadingZeros (x : Nat) : Nat → Nat
  | 0 => 0
  | n + 1 => if x.testBit n then 0 else 1 + leadingZeros x n

/-- Trailing zero bits of bits [i + n - 1:i] of x. -/
def trailingZeros (x i : Nat) : Nat → Nat
  | 0 => 0
  | n + 1 => if x.testBit i then 0 else 1 + trailingZeros x (i + 1) n

/-- The number of 1 bits among the low n of x. -/
def popCount (x : Nat) : Nat → Nat
  | 0 => 0
  | n + 1 => (if x.testBit n then 1 else 0) + popCount x n

/-- The quotient of div, truncated toward zero; all ones for a zero divisor (R94). -/
def sdiv (x y : Word) : Word := if y = 0 then BitVec.allOnes 64 else BitVec.ofInt 64 (x.toInt.tdiv y.toInt)

/-- The quotient of divu. -/
def udiv (x y : Word) : Word := if y = 0 then BitVec.allOnes 64 else BitVec.ofNat 64 (x.toNat / y.toNat)

/-- The remainder of rem, with the sign of the dividend; the dividend for a zero divisor (R94). -/
def srem (x y : Word) : Word := if y = 0 then x else BitVec.ofInt 64 (x.toInt.tmod y.toInt)

/-- The remainder of remu. -/
def urem (x y : Word) : Word := if y = 0 then x else BitVec.ofNat 64 (x.toNat % y.toNat)

/-- A 12-bit immediate sign-extended (R96). -/
def imm (i : BitVec 12) : Word := i.signExtend 64

/-- The place of halfword hw (R97). -/
def halfword (x : BitVec 16) (hw : BitVec 2) : Word := (x.setWidth 64) <<< (16 * hw.toNat)

/-- add (R93). -/
def execAdd (d a b : Opd) (s : State) : Out := binary d a b false (fun x y => x + y) s
/-- sub (R93). -/
def execSub (d a b : Opd) (s : State) : Out := binary d a b false (fun x y => x - y) s
/-- and (R93). -/
def execAnd (d a b : Opd) (s : State) : Out := binary d a b false (fun x y => x &&& y) s
/-- or (R93). -/
def execOr (d a b : Opd) (s : State) : Out := binary d a b false (fun x y => x ||| y) s
/-- xor (R93). -/
def execXor (d a b : Opd) (s : State) : Out := binary d a b false (fun x y => x ^^^ y) s
/-- andn (R93). -/
def execAndn (d a b : Opd) (s : State) : Out := binary d a b false (fun x y => x &&& ~~~y) s
/-- shl (R93). -/
def execShl (d a b : Opd) (s : State) : Out := binary d a b false (fun x y => x <<< shiftAmount y) s
/-- shr (R93). -/
def execShr (d a b : Opd) (s : State) : Out := binary d a b false (fun x y => x >>> shiftAmount y) s
/-- sra (R93). -/
def execSra (d a b : Opd) (s : State) : Out := binary d a b false (fun x y => x.sshiftRight (shiftAmount y)) s
/-- rol (R93). -/
def execRol (d a b : Opd) (s : State) : Out := binary d a b false (fun x y => x.rotateLeft (shiftAmount y)) s
/-- min (R93). -/
def execMin (d a b : Opd) (s : State) : Out := binary d a b false smin s
/-- max (R93). -/
def execMax (d a b : Opd) (s : State) : Out := binary d a b false smax s
/-- minu (R93). -/
def execMinu (d a b : Opd) (s : State) : Out := binary d a b false umin s
/-- maxu (R93). -/
def execMaxu (d a b : Opd) (s : State) : Out := binary d a b false umax s
/-- mul (R93). -/
def execMul (d a b : Opd) (s : State) : Out := binary d a b false (fun x y => x * y) s
/-- mulh (R93). -/
def execMulh (d a b : Opd) (s : State) : Out :=
  binary d a b false (fun x y => BitVec.ofInt 64 (x.toInt * y.toInt / 2 ^ 64)) s
/-- mulhu (R93). -/
def execMulhu (d a b : Opd) (s : State) : Out :=
  binary d a b false (fun x y => BitVec.ofNat 64 (x.toNat * y.toNat / 2 ^ 64)) s
/-- div (R94). -/
def execDiv (d a b : Opd) (s : State) : Out := binary d a b true sdiv s
/-- divu (R94). -/
def execDivu (d a b : Opd) (s : State) : Out := binary d a b true udiv s
/-- rem (R94). -/
def execRem (d a b : Opd) (s : State) : Out := binary d a b true srem s
/-- remu (R94). -/
def execRemu (d a b : Opd) (s : State) : Out := binary d a b true urem s
/-- clz (R93). -/
def execClz (d a : Opd) (s : State) : Out := unary d a (fun x => BitVec.ofNat 64 (leadingZeros x.toNat 64)) s
/-- ctz (R93). -/
def execCtz (d a : Opd) (s : State) : Out := unary d a (fun x => BitVec.ofNat 64 (trailingZeros x.toNat 0 64)) s
/-- popc (R93). -/
def execPopc (d a : Opd) (s : State) : Out := unary d a (fun x => BitVec.ofNat 64 (popCount x.toNat 64)) s
/-- sext.b (R93). -/
def execSextB (d a : Opd) (s : State) : Out := unary d a (fun x => (x.setWidth 8).signExtend 64) s
/-- sext.h (R93). -/
def execSextH (d a : Opd) (s : State) : Out := unary d a (fun x => (x.setWidth 16).signExtend 64) s
/-- sext.w (R93). -/
def execSextW (d a : Opd) (s : State) : Out := unary d a (fun x => (x.setWidth 32).signExtend 64) s
/-- zext.b (R93). -/
def execZextB (d a : Opd) (s : State) : Out := unary d a (fun x => (x.setWidth 8).setWidth 64) s
/-- zext.h (R93). -/
def execZextH (d a : Opd) (s : State) : Out := unary d a (fun x => (x.setWidth 16).setWidth 64) s
/-- zext.w (R93). -/
def execZextW (d a : Opd) (s : State) : Out := unary d a (fun x => (x.setWidth 32).setWidth 64) s
/-- cmp.eq (R93). -/
def execCmpEq (d a b : Opd) (s : State) : Out := binary d a b false (fun x y => ofCond (x == y)) s
/-- cmp.ne (R93). -/
def execCmpNe (d a b : Opd) (s : State) : Out := binary d a b false (fun x y => ofCond (x != y)) s
/-- cmp.lt (R93). -/
def execCmpLt (d a b : Opd) (s : State) : Out := binary d a b false (fun x y => ofCond (x.slt y)) s
/-- cmp.ge (R93). -/
def execCmpGe (d a b : Opd) (s : State) : Out := binary d a b false (fun x y => ofCond (!x.slt y)) s
/-- cmp.ltu (R93). -/
def execCmpLtu (d a b : Opd) (s : State) : Out := binary d a b false (fun x y => ofCond (x.ult y)) s
/-- cmp.geu (R93). -/
def execCmpGeu (d a b : Opd) (s : State) : Out := binary d a b false (fun x y => ofCond (!x.ult y)) s

/-- sel: every queue named pops, whichever value is selected (R95). -/
def execSel (d a b c : Opd) (s : State) : Out :=
  let us : List Use := [⟨.scalar, .dst, d⟩, ⟨.scalar, .src, a⟩, ⟨.scalar, .src, b⟩, ⟨.scalar, .src, c⟩]
  withOperands us s fun s =>
    let (x, s) := s.readS a
    let (y, s) := s.readS b
    let (z, s) := s.readS c
    .next (s.resultS d (if z = 0 then y else x) (popsAny us)).complete

/-- addi (R96). -/
def execAddi (d a : Opd) (i : BitVec 12) (s : State) : Out := unary d a (fun x => x + imm i) s
/-- andi (R96). -/
def execAndi (d a : Opd) (i : BitVec 12) (s : State) : Out := unary d a (fun x => x &&& imm i) s
/-- ori (R96). -/
def execOri (d a : Opd) (i : BitVec 12) (s : State) : Out := unary d a (fun x => x ||| imm i) s
/-- xori (R96). -/
def execXori (d a : Opd) (i : BitVec 12) (s : State) : Out := unary d a (fun x => x ^^^ imm i) s

/-- movi (R97). -/
def execMovi (d : Opd) (hw : BitVec 2) (x : BitVec 16) (s : State) : Out :=
  withOperands [⟨.scalar, .dst, d⟩] s fun s => .next (s.resultS d (halfword x hw) false).complete

/-- movk (R97); d is read as a source. -/
def execMovk (d : Opd) (hw : BitVec 2) (x : BitVec 16) (s : State) : Out :=
  let (y, s) := s.readS d
  .next (s.resultS d ((y &&& ~~~(halfword 0xFFFF hw)) ||| halfword x hw) false).complete

end Sys2Proof.Machine
end

