-- ==== Sys2Proof/Machine/Float.lean ====
section
/-! DEFINITION. The scalar floating-point instructions (R98-R101). -/

set_option Elab.async false

namespace Sys2Proof.Machine

open Sys2Proof

/-- Bits [31:0] of a scalar operand. -/
def low32 (x : Word) : Lane := x.setWidth 32

/-- Decode(Bits(A, 31, 0), FP32) (R100). -/
def f32 (x : Lane) : Val := decode fp32 x.toNat

/-- A value rounded to FP32 under RM, one LFSR step under SR (R98, R157), with the operation's own flags. -/
def round32 (s : State) (r : Val × FFlags) : Lane × FFlags × State :=
  let (l, s') := s.drawsFor s.mode 1
  let (c, g) := round fp32 s.mode false (l.headD 0) r.1
  (BitVec.ofNat 32 c, r.2 ||| g, s')

/-- A floating-point instruction of three scalar sources; f computes the value to be rounded. -/
def float3 (d a b c : Opd) (f : Mode → Lane → Lane → Lane → Val × FFlags) (s : State) : Out :=
  let us : List Use := [⟨.scalar, .dst, d⟩, ⟨.scalar, .src, a⟩, ⟨.scalar, .src, b⟩, ⟨.scalar, .src, c⟩]
  withOperands us s fun s0 =>
    let (x, s) := s0.readS a
    let (y, s) := s.readS b
    let (z, s) := s.readS c
    let (r, g, s) := round32 s (f s.mode (low32 x) (low32 y) (low32 z))
    withFlags s0 s g fun s => .next (s.resultS d (r.setWidth 64) (popsAny us)).complete

/-- Two scalar sources, a rounded FP32 result. -/
def float2 (d a b : Opd) (long : Bool) (f : Mode → Lane → Lane → Val × FFlags) (s : State) : Out :=
  let us : List Use := [⟨.scalar, .dst, d⟩, ⟨.scalar, .src, a⟩, ⟨.scalar, .src, b⟩]
  withOperands us s fun s0 =>
    let (x, s) := s0.readS a
    let (y, s) := s.readS b
    let (r, g, s) := round32 s (f s.mode (low32 x) (low32 y))
    withFlags s0 s g fun s => .next (s.resultS d (r.setWidth 64) (long || popsAny us)).complete

/-- One scalar source, a rounded FP32 result. -/
def float1 (d a : Opd) (long : Bool) (f : Word → Val × FFlags) (s : State) : Out :=
  let us : List Use := [⟨.scalar, .dst, d⟩, ⟨.scalar, .src, a⟩]
  withOperands us s fun s0 =>
    let (x, s) := s0.readS a
    let (r, g, s) := round32 s (f x)
    withFlags s0 s g fun s => .next (s.resultS d (r.setWidth 64) (long || popsAny us)).complete

/-- Two scalar sources, a result that is not rounded, with its flags. -/
def direct2 (d a b : Opd) (f : Lane → Lane → Word × FFlags) (s : State) : Out :=
  let us : List Use := [⟨.scalar, .dst, d⟩, ⟨.scalar, .src, a⟩, ⟨.scalar, .src, b⟩]
  withOperands us s fun s0 =>
    let (x, s) := s0.readS a
    let (y, s) := s.readS b
    let (r, g) := f (low32 x) (low32 y)
    withFlags s0 s g fun s => .next (s.resultS d r (popsAny us)).complete

/-- One scalar source, a result that is not rounded, with its flags. -/
def direct1 (d a : Opd) (f : Lane → Word × FFlags) (s : State) : Out :=
  let us : List Use := [⟨.scalar, .dst, d⟩, ⟨.scalar, .src, a⟩]
  withOperands us s fun s0 =>
    let (x, s) := s0.readS a
    let (r, g) := f (low32 x)
    withFlags s0 s g fun s => .next (s.resultS d r (popsAny us)).complete

/-- The FP32 value with bits [30:0] of x and a given sign. -/
def withSign (x : Lane) (neg : Bool) : Lane := (x &&& 0x7FFFFFFF) ||| ((BitVec.ofBool neg).setWidth 32 <<< 31)

/-- x = y, NV for a signalling NaN (R100). -/
def cmpEqF (x y : Lane) : Bool × FFlags := (eqV (f32 x) (f32 y), (f32 x).sig ||| (f32 y).sig)

/-- x < y, NV for any NaN. -/
def cmpLtF (x y : Lane) : Bool × FFlags :=
  if (f32 x).isNan || (f32 y).isNan then (false, fNV) else (ltV (f32 x) (f32 y), 0)

/-- x ≤ y, NV for any NaN. -/
def cmpLeF (x y : Lane) : Bool × FFlags :=
  if (f32 x).isNan || (f32 y).isNan then (false, fNV) else (!ltV (f32 y) (f32 x), 0)

/-- x or y is a NaN, NV for a signalling one. -/
def cmpUnF (x y : Lane) : Bool × FFlags := ((f32 x).isNan || (f32 y).isNan, (f32 x).sig ||| (f32 y).sig)

/-- A condition with flags as a scalar result. -/
def condF (r : Bool × FFlags) : Word × FFlags := (ofCond r.1, r.2)

/-- The bit fclass sets (R100). -/
def classOf (x : Lane) : Nat :=
  match f32 x with
  | .nan sig => if sig then 8 else 9
  | .inf neg => if neg then 0 else 7
  | .fin neg m _ _ =>
    if m = 0 then (if neg then 3 else 4)
    else if m < 2 ^ 23 then (if neg then 2 else 5)
    else (if neg then 1 else 6)

/-- x truncated toward zero into the range lo to hi; a NaN gives 0 (R101). -/
def truncate (lo hi : Int) (x : Val) : Int × FFlags :=
  match x with
  | .nan _ => (0, fNV)
  | .inf neg => (if neg then lo else hi, fNV)
  | .fin neg m e _ =>
    let (n, inexact) := roundAt .rtz neg 0 m e false 0
    let y : Int := if neg then -(n : Int) else n
    if y < lo then (lo, fNV) else if hi < y then (hi, fNV) else (y, if inexact then fNX else 0)

/-- fadd (R100). -/
def execFadd (d a b : Opd) (s : State) : Out := float2 d a b false (fun m x y => addV m (f32 x) (f32 y)) s
/-- fsub (R100). -/
def execFsub (d a b : Opd) (s : State) : Out := float2 d a b false (fun m x y => addV m (f32 x) (f32 y).negate) s
/-- fmul (R100). -/
def execFmul (d a b : Opd) (s : State) : Out := float2 d a b false (fun _ x y => mulV (f32 x) (f32 y)) s
/-- fdiv (R100). -/
def execFdiv (d a b : Opd) (s : State) : Out := float2 d a b true (fun _ x y => divV (f32 x) (f32 y)) s
/-- fsqrt (R100). -/
def execFsqrt (d a : Opd) (s : State) : Out := float1 d a true (fun x => sqrtV (f32 (low32 x))) s
/-- ffma (R100). -/
def execFfma (d a b c : Opd) (s : State) : Out :=
  float3 d a b c (fun m x y z => fmaV m (f32 x) (f32 y) (f32 z)) s
/-- fmin (R100). -/
def execFmin (d a b : Opd) (s : State) : Out :=
  direct2 d a b (fun x y => let (r, g) := minmax false x y; (r.setWidth 64, g)) s
/-- fmax (R100). -/
def execFmax (d a b : Opd) (s : State) : Out :=
  direct2 d a b (fun x y => let (r, g) := minmax true x y; (r.setWidth 64, g)) s
/-- fclass (R100). -/
def execFclass (d a : Opd) (s : State) : Out := direct1 d a (fun x => ((1 : Word) <<< classOf x, 0)) s
/-- fcmp.eq (R100). -/
def execFcmpEq (d a b : Opd) (s : State) : Out := direct2 d a b (fun x y => condF (cmpEqF x y)) s
/-- fcmp.lt (R100). -/
def execFcmpLt (d a b : Opd) (s : State) : Out := direct2 d a b (fun x y => condF (cmpLtF x y)) s
/-- fcmp.le (R100). -/
def execFcmpLe (d a b : Opd) (s : State) : Out := direct2 d a b (fun x y => condF (cmpLeF x y)) s
/-- fcmp.un (R100). -/
def execFcmpUn (d a b : Opd) (s : State) : Out := direct2 d a b (fun x y => condF (cmpUnF x y)) s
/-- fsgn.j (R100). -/
def execFsgnJ (d a b : Opd) (s : State) : Out :=
  direct2 d a b (fun x y => ((withSign x (y.getLsbD 31)).setWidth 64, 0)) s
/-- fsgn.n (R100). -/
def execFsgnN (d a b : Opd) (s : State) : Out :=
  direct2 d a b (fun x y => ((withSign x (!y.getLsbD 31)).setWidth 64, 0)) s
/-- fsgn.x (R100). -/
def execFsgnX (d a b : Opd) (s : State) : Out :=
  direct2 d a b (fun x y => ((withSign x (x.getLsbD 31 != y.getLsbD 31)).setWidth 64, 0)) s
/-- fcvt.f.i (R101). -/
def execFcvtFI (d a : Opd) (s : State) : Out := float1 d a false (fun x => (ofSigned x.toInt 0 false, 0)) s
/-- fcvt.f.iu (R101). -/
def execFcvtFIu (d a : Opd) (s : State) : Out := float1 d a false (fun x => (ofSigned x.toNat 0 false, 0)) s
/-- fcvt.i.f (R101). -/
def execFcvtIF (d a : Opd) (s : State) : Out :=
  direct1 d a (fun x => let (y, g) := truncate (-(2 ^ 63)) (2 ^ 63 - 1) (f32 x); (BitVec.ofInt 64 y, g)) s
/-- fcvt.iu.f (R101). -/
def execFcvtIuF (d a : Opd) (s : State) : Out :=
  direct1 d a (fun x => let (y, g) := truncate 0 (2 ^ 64 - 1) (f32 x); (BitVec.ofInt 64 y, g)) s

end Sys2Proof.Machine
end

