-- ==== Sys2Proof/Machine/Blocks.lean ====
section
/-! DEFINITION. Block scales, stream-form blocks, the plane form, and window-table entries
(11 R152-R162, 13 R188-R191). -/

set_option Elab.async false

namespace Sys2Proof.Machine

open Sys2Proof

/-- The value of a scale code, none for its NaN (R152); no scale format means 1. -/
def scaleVal (sfmt c : Nat) : Option (Nat × Int) :=
  if sfmt = 0x11 then (if c = 0xFF then none else some (1, (c : Int) - 127))
  else if sfmt = 0x12 then
    if 0x7F ≤ c then none
    else if c < 8 then some (c, -9)
    else some (8 + c % 8, (c / 8 : Nat) - 10)
  else some (1, 0)

/-- The exponent of the implicit factor f (R153). -/
def factorExp (efmt sfmt : Nat) : Int :=
  if sfmt = 0x11 then (if efmt = 0x0D then -2 else if efmt = 0x0A then -6 else if efmt = 0x0B then -14 else 0)
  else 0

/-- Decode(code) × f × X before it is rounded (R153, R159). -/
def blockVal (efmt sfmt scale code : Nat) : Val :=
  match fmtOf efmt with
  | none => qnan
  | some f =>
    let v := decode f code
    match scaleVal sfmt scale with
    | none => qnan
    | some (m, e) =>
      match v with
      | .fin neg n k t =>
        if m = 0 then .fin false 0 0 false else .fin neg (n * m) (k + e + factorExp efmt sfmt) t
      | v => v

/-- emax of R158 for an E8M0 scale. -/
def emaxOf (efmt : Nat) : Int :=
  match efmt with
  | 0x05 => 8
  | 0x06 => 15
  | 0x07 => 2
  | 0x08 => 4
  | 0x09 => 2
  | _ => 0

/-- M of R158 for a UE4M3 scale, as m × 2^e. -/
def maxFinite (efmt : Nat) : Nat × Int :=
  match fmtOf efmt with
  | some f => match decode f f.maxCode with
    | .fin _ m e _ => (m, e)
    | _ => (1, 0)
  | none => (1, 0)

/-- The magnitude m × 2^e as a comparison key against n × 2^f. -/
def magLe (m : Nat) (e : Int) (n : Nat) (f : Int) : Bool :=
  let e0 := min e f
  decide (m * 2 ^ (e - e0).toNat ≤ n * 2 ^ (f - e0).toNat)

/-- The largest finite magnitude of a block. -/
def amax : List Val → Nat × Int
  | [] => (0, 0)
  | .fin _ m e _ :: r => let (n, f) := amax r; if magLe m e n f then (n, f) else (m, e)
  | _ :: r => amax r

/-- The least UE4M3 code from c up, at most n further, whose value times M reaches amax. -/
def leastScale (mm : Nat) (me : Int) (am : Nat) (ae : Int) (c : Nat) : Nat → Nat
  | 0 => c
  | n + 1 =>
    match scaleVal 0x12 c with
    | some (sm, se) => if magLe am ae (sm * mm) (se + me) then c else leastScale mm me am ae (c + 1) n
    | none => c

/-- The scale code of a block (R158). -/
def blockScale (efmt sfmt : Nat) (xs : List Val) : Nat :=
  let (m, e) := amax xs
  if sfmt = 0x11 then
    if m = 0 then 0x7F
    else (max (-127) (min 127 ((bitLen m : Int) - 1 + e - emaxOf efmt)) + 127).toNat
  else if sfmt = 0x12 then
    if m = 0 then 0x38
    else let (mm, me) := maxFinite efmt; leastScale mm me m e 1 0x7D
  else 0

/-- The element format has a NaN code. -/
def hasNanCode (efmt : Nat) : Bool := efmt == 1 || efmt == 2 || efmt == 3 || efmt == 5 || efmt == 6

/-- x / (f × X) (R158). -/
def unscale (efmt sfmt scale : Nat) (x : Val) : Val :=
  match scaleVal sfmt scale, x with
  | some (m, e), .fin neg n k t =>
    if n = 0 then .fin neg 0 0 t
    else if m = 1 then .fin neg n (k - e - factorExp efmt sfmt) t
    else (divV (.fin neg n k t) (.fin false m (e + factorExp efmt sfmt) false)).1
  | _, x => x

/-- Rounds a list of values, one draw each (R157). -/
def roundAll (f : Fmt) (mode : Mode) (sat : Bool) : List Nat → List Val → List Nat × FFlags
  | _, [] => ([], 0)
  | ds, x :: r =>
    let (c, g) := round f mode sat (ds.headD 0) x
    let (l, h) := roundAll f mode sat (ds.drop 1) r
    (c :: l, g ||| h)

/-- Encoding a block: its scale code before a NaN marks it, its element codes and its flags (R158). -/
def encodeElems (efmt sfmt : Nat) (mode : Mode) (sat : Bool) (draws : List Nat) (xs : List Val) :
    Nat × List Nat × FFlags :=
  match fmtOf efmt with
  | none => (0, [], 0)
  | some f =>
    let scale := blockScale efmt sfmt xs
    let (cs, g) := roundAll f mode sat draws (xs.map (unscale efmt sfmt scale))
    (scale, cs, g)

/-- Encoding a stream-form block: a NaN element of a format without a NaN code marks the scale (R158). -/
def encodeBlock (efmt sfmt : Nat) (mode : Mode) (sat : Bool) (draws : List Nat) (xs : List Val) :
    Nat × List Nat × FFlags :=
  let (scale, cs, g) := encodeElems efmt sfmt mode sat draws xs
  let marked := xs.any Val.isNan && !hasNanCode efmt
  (if marked then (if sfmt = 0x11 then 0xFF else if sfmt = 0x12 then 0x7F else scale) else scale, cs, g)

/-- Codes of width w as a little-endian bit stream (R154, R177). -/
def packCodes (w : Nat) : List Nat → Nat
  | [] => 0
  | c :: r => c % 2 ^ w + 2 ^ w * packCodes w r

/-- The first n codes of width w of a bit stream. -/
def unpackCodes (w x : Nat) : Nat → List Nat
  | 0 => []
  | n + 1 => x % 2 ^ w :: unpackCodes w (x / 2 ^ w) n

/-! ## The plane form (R160-R162) -/

/-- The natural plane count N of a format that has a plane form (R161). -/
def naturalPlanes (efmt : Nat) : Option Nat :=
  match efmt with
  | 0x0D => some 4
  | 0x0A => some 8
  | 0x0B => some 16
  | 0x09 => some 5
  | 0x07 => some 7
  | 0x08 => some 10
  | 0x05 => some 20
  | 0x06 => some 34
  | _ => none

/-- The exponent of the grid unit g (R150, R151). -/
def gridExp (efmt : Nat) : Int :=
  match fmtOf efmt with
  | some (.float _ mb bias _) => 1 - (bias : Int) - mb
  | _ => 0

/-- J_k: the code in units of its grid, 0 for a NaN or an infinity (R161). -/
def gridInt (efmt code : Nat) : Int :=
  match fmtOf efmt with
  | some f => match decode f code with
    | .fin neg m e _ => scaled neg m e (gridExp efmt)
    | _ => 0
  | none => 0

/-- The bits of a plane header's FLAGS that an element sets: NaN, +Inf, −Inf (R160, R161). -/
def planeFlag (efmt : Nat) (x : Val) (code : Nat) : Nat :=
  let c := match fmtOf efmt with | some f => decode f code | none => qnan
  match x, c with
  | .nan _, _ => 1
  | _, .nan _ => 1
  | .inf neg, _ => if neg then 4 else 2
  | _, .inf neg => if neg then 4 else 2
  | _, _ => 0

/-- RoundRNE(J / 2^s). -/
def shiftRne (j : Int) (s : Nat) : Int :=
  let (n, _) := roundAt .rne (decide (j < 0)) 0 j.natAbs 0 false s
  if j < 0 then -(n : Int) else n

/-- The least shift from s up that brings every J into p planes (R161). -/
def planeShift (js : List Int) (p s : Nat) : Nat → Nat
  | 0 => s
  | n + 1 =>
    if js.all (fun j => let i := shiftRne j s; decide (-(2 ^ (p - 1) : Nat) ≤ i) && decide (i < (2 ^ (p - 1) : Nat)))
    then s else planeShift js p (s + 1) n

/-- Plane j of the integers, as the bits of L elements (R160). -/
def planeBits (js : List Int) (j : Nat) : Nat :=
  match js with
  | [] => 0
  | x :: r => (if (wrap x 64).testBit j then 1 else 0) + 2 * planeBits r j

/-- A plane-form block: header fields and the integers (R160). -/
structure PlaneBlock where
  scale : Nat
  flags : Nat
  shift : Nat
  pmask : Nat
  ints : List Int
deriving DecidableEq, Repr

/-- Encoding a plane-form block from real values, at p planes (R161). -/
def encodePlane (efmt sfmt p : Nat) (mode : Mode) (sat : Bool) (draws : List Nat) (xs : List Val) :
    PlaneBlock × FFlags :=
  let (scale, cs, g) := encodeElems efmt sfmt mode sat draws xs
  let js := cs.map (gridInt efmt)
  let s := planeShift js p 0 40
  let is := js.map (fun j => shiftRne j s)
  let fl := ((xs.zip cs).map (fun xc => planeFlag efmt xc.1 xc.2)).foldl (· ||| ·) 0
  let nx := (is.zip js).any (fun ij => ij.1 * 2 ^ s != ij.2)
  (⟨if sfmt = 0 then 0 else scale, fl, s, 2 ^ xs.length - 1, is⟩, if nx then g ||| fNX else g)

/-- The bytes of a plane-form block, little-endian (R160). -/
def PlaneBlock.toNat (b : PlaneBlock) (p : Nat) : Nat :=
  let l := b.ints.length
  b.scale + b.flags * 2 ^ 8 + b.shift * 2 ^ 16 + b.pmask % 2 ^ 32 * 2 ^ 32 +
    2 ^ 64 * packCodes l ((List.range p).map (planeBits b.ints))

/-- The integer of element k read down p planes of l elements (R160). -/
def planeInt (planes l p k : Nat) : Int :=
  sext (packCodes 1 ((List.range p).map (fun j => if planes.testBit (j * l + k) then 1 else 0))) p

/-- Reads a plane-form block of l elements at p planes back from its bytes. -/
def planeOfNat (x l p : Nat) : PlaneBlock :=
  let pm := bits x 63 32
  ⟨bits x 7 0, bits x 15 8, bits x 23 16, pm,
    (List.range l).map (fun k => if pm.testBit k then planeInt (x / 2 ^ 64) l p k else 0)⟩

/-- The bytes a plane-form block occupies (R160). -/
def planeBytes (l p : Nat) : Nat := 8 + p * l / 8

/-- The values of a plane-form block read through a window (R162). DESIGN CHOICE (log 92): with a zero SCALE and both the +Inf and the
-Inf flag, every element is +Inf; R162 gives no precedence. -/
def planeVals (efmt sfmt : Nat) (b : PlaneBlock) : List Val :=
  match scaleVal sfmt b.scale with
  | none => b.ints.map (fun _ => qnan)
  | some (m, e) =>
    if b.flags.testBit 0 then b.ints.map (fun _ => qnan)
    else if m = 0 ∧ b.flags % 8 = 0 then b.ints.map (fun _ => .fin false 0 0 false)
    else
      let (mm, me) := maxFinite efmt
      let fe := factorExp efmt sfmt
      b.ints.map (fun i =>
        let v := ofSigned (i * m) (b.shift + gridExp efmt + fe + e) false
        let top := Val.fin false (mm * m) (me + fe + e) false
        if b.flags.testBit 1 && !ltV v top then .inf false
        else if b.flags.testBit 2 && !ltV top.negate v then .inf true
        else v)

/-! ## Window-table entries (R188-R191) -/

/-- A window-table entry's fields. -/
structure Entry where
  valid : Bool
  sat : Bool
  rm : Nat
  len : Nat
  planes : Nat
  sfmt : Nat
  efmt : Nat
deriving DecidableEq, Repr

/-- The fields of cr.win (R188). -/
def entryOf (x : Word) : Entry :=
  let n := x.toNat
  ⟨n.testBit 63, n.testBit 28, bits n 27 25, if n.testBit 24 then 32 else 16, bits n 20 16, bits n 15 8, bits n 7 0⟩

/-- An access through the entry raises no 0x31; `plane` for the plane window (R188). -/
def Entry.ok (x : Entry) (plane : Bool) : Bool :=
  x.valid && decide (1 ≤ x.efmt ∧ x.efmt ≤ 13) && (fmtOf x.efmt).isSome &&
  (x.sfmt == 0 || x.sfmt == 0x11 || x.sfmt == 0x12) &&
  !(x.sfmt != 0 && (x.efmt == 1 || x.efmt == 2 || x.efmt == 3 || x.efmt == 0x0C)) &&
  decide (x.rm ≤ 4) && !(x.planes == 1 || decide (16 < x.planes)) &&
  !(plane && ((naturalPlanes x.efmt).isNone || x.planes == 0))

/-- The width of the entry's elements. -/
def Entry.width (x : Entry) : Nat := widthOf x.efmt

/-- The entry is byte-addressed (R190). -/
def Entry.byteAddressed (x : Entry) : Bool := x.sfmt == 0 && decide (8 ≤ x.width)

/-- The slot size Z of a slot-addressed entry (R190). -/
def Entry.slot (x : Entry) : Nat := if x.width ≤ 6 then x.len else if x.width = 8 then 2 * x.len else 4 * x.len

/-- The element a local address names, if it names one (R190). -/
def Entry.element (x : Entry) (loc : Nat) : Option Nat :=
  if x.byteAddressed then (if loc % (x.width / 8) = 0 then some (loc / (x.width / 8)) else none)
  else if loc % x.slot < x.len then some (loc / x.slot * x.len + loc % x.slot) else none

/-- The first bit of element n's code, counted from local byte 0 (R190). -/
def Entry.codeBit (x : Entry) (n : Nat) : Nat :=
  if x.byteAddressed then n * x.width
  else n / x.len * x.slot * 8 + (if x.sfmt = 0 then 0 else 8) + n % x.len * x.width

/-- The byte of the scale code of element n's block. -/
def Entry.scaleByte (x : Entry) (n : Nat) : Nat := n / x.len * x.slot

/-- The stride of plane-form blocks in the plane window (R191). -/
def Entry.planeStride (x : Entry) : Nat := 8 * ceilDiv (planeBytes x.len x.planes) 8

/-- Rounds decoded values to FP32 under the entry (R188), one draw each under SR. -/
def Entry.toF32 (x : Entry) (draws : List Nat) (vs : List Val) : List Nat × FFlags :=
  roundAll fp32 (modeOf x.rm) x.sat draws vs

end Sys2Proof.Machine
end

