-- ==== Sys2Proof/Machine/Memory.lean ====
section
/-! DEFINITION. Homes, the order of items in flight, the cluster data cache, and the moment an access is performed
(13 R193-R196, 18 R246-R251, 20 R281, 21 R291-R301). -/

set_option Elab.async false

namespace Sys2Proof.Machine

open Sys2Proof

/-! ## Physical keys -/

/-- The key of a scratchpad byte: its window-0 address (R184, R185). -/
def scratchKey (core loc : Nat) : Nat :=
  0xF0 * 2 ^ 56 + core / 1024 * 2 ^ 38 + core / 16 % 64 * 2 ^ 32 + core % 16 * 2 ^ 18 + loc

/-- The key is a scratchpad byte's. -/
def isScratch (key : Nat) : Bool := key / 2 ^ 56 == 0xF0

/-- The core that owns a scratchpad key. -/
def coreOfKey (key : Nat) : Nat := key / 2 ^ 38 % 2 * 1024 + key / 2 ^ 32 % 64 * 16 + key / 2 ^ 18 % 16

/-- The core-local address of a scratchpad key. -/
def localOf (key : Nat) : Nat := key % 2 ^ 18

/-- The package channel that homes an HBM key (R233, R291). -/
def channelOf (key : Nat) : Nat :=
  key / 2 ^ 56 % 2 * 128 + key / 2 ^ 36 % 4 * 32 + (key / 2 ^ 8 % 32) ^^^ (key / 2 ^ 13 % 32)

/-- The key is in HBM. -/
def isHbm (key : Nat) : Bool := key / 2 ^ 56 ≤ 1

/-- Where the forwarding entries of moved cores lead from a core, each followed in turn. -/
def chase (moved : List (Nat × Nat)) (core : Nat) : Nat → Nat
  | 0 => core
  | n + 1 => match moved.find? (fun p => p.1 == core) with | some p => chase moved p.2 n | none => core

/-- The two addresses fall to what now holds the byte: a moved core (R337), then migrated frames (R281). -/
def forwardKey (moved : List (Nat × Nat)) (fw : List (Nat × Nat × Nat)) (key : Nat) : Nat :=
  if isScratch key then (if moved.isEmpty then key else scratchKey (chase moved (coreOfKey key) moved.length) (localOf key))
  else fw.foldl (fun k e => if e.1 ≤ k ∧ k < e.1 + e.2.2 then k - e.1 + e.2.1 else k) key

/-- Where a key's byte is held now. -/
def State.fwd (s : State) (key : Nat) : Nat := forwardKey s.moved s.forwards key

/-- The host port a source uses, if one is live (R297). -/
def State.hostPort (s : State) (core : Nat) : Option Nat :=
  let live := [0, 1].filter (fun p => !s.deadPorts.contains p)
  match live with
  | [] => none
  | [p] => some p
  | _ => some (core % 2)

/-- The live links of a remote device's set (R297). -/
def State.deviceLinks (s : State) (dev : Nat) : List Nat :=
  (sget s.devices dev []).filter (fun l => !s.deadLinks.contains l)

/-- The link a source uses toward a device: the one of the device's set at its identifier modulo the set's size, or, where that
one is down, one of the live ones chosen so (R297, log 64). -/
def State.deviceLink (s : State) (core dev : Nat) : Option Nat :=
  let set := sget s.devices dev []
  let own := set.getD (core % set.length) 0
  match s.deviceLinks dev with
  | [] => none
  | live => if live.contains own then some own else live[core % live.length]?

/-- A path to the key's home exists for a source (R297). -/
def State.reachable (s : State) (core key : Nat) : Bool :=
  let h := key / 2 ^ 56
  if h = 2 then (s.hostPort core).isSome
  else if 0x10 ≤ h ∧ h ≤ 0x2F then (s.deviceLink core (h - 0x10)).isSome
  else true

/-- The number of the home of a key, as a source reaches it: the owning core for a scratchpad (R246); a device with no live link
is reached through none, the number 32 (R297). -/
def State.homeOf (s : State) (core key : Nat) : Nat :=
  let h := key / 2 ^ 56
  if isScratch key then 0x10000 + coreOfKey key
  else if h ≤ 1 then 0x20000 + channelOf key
  else if h = 2 then 0x30000 + (s.hostPort core).getD 0
  else 0x40000 + (h - 0x10) * 64 + (s.deviceLink core (h - 0x10)).getD 32

/-- The place of a sector in a data cache; no home of R246. -/
def cacheHome (key : Nat) : Nat := 2 ^ 80 + key / 64

/-- The port or link toward a home is still up (R297). -/
def State.pathLive (s : State) (home : Nat) : Bool :=
  if 0x30000 ≤ home ∧ home < 0x30002 then !s.deadPorts.contains (home - 0x30000)
  else if 0x40000 ≤ home ∧ home < 0x40800 then decide (home % 64 < 32) && !s.deadLinks.contains (home % 64)
  else true

/-- An access of an item arrives: along the path that the item was sent, or, for a fill, along the one it is sent now (R297). -/
def State.arrives (s : State) (core home key : Nat) : Bool :=
  if home < 2 ^ 80 then s.pathLive home else s.reachable core key

/-- The core where messages, items and steals for a core now arrive (R336, R337). -/
def State.coreAt (s : State) (c : Nat) : Nat :=
  let d := chase s.moved c s.moved.length
  match s.restored.find? (fun p => p.1 == d) with | some p => p.2 | none => d

/-- The smallest fence scope that contains a key's home: 0 .core, 1 .cl, 2 .die, 3 .sys (R112). -/
def scopeOf (core key : Nat) : Nat :=
  if isScratch key then
    (if coreOfKey key = core then 0
     else if clusterOf (coreOfKey key) = clusterOf core then 1
     else if dieOf (coreOfKey key) = dieOf core then 2 else 3)
  else if key / 2 ^ 56 = dieOf core then 2 else 3

/-- The smallest fence scope that contains the home of a key where its byte is held now (R112, R281, R337). -/
def State.scope (s : State) (core key : Nat) : Nat := scopeOf core (s.fwd key)

/-! ## Reading and writing at the home -/

/-- The keys / 8 of the words that n bytes from a key touch. -/
def wordsOf (key n : Nat) : List Nat := (List.range ((key + n - 1) / 8 - key / 8 + 1)).map (fun i => key / 8 + i)

/-- The n bytes from a key as they are delivered: every word that holds an uncorrectable error as zero (R122). -/
def State.readNat (s : State) (key : Nat) : Nat → Nat
  | 0 => 0
  | n + 1 =>
    let k := s.fwd key
    (if s.bad.contains (k / 8) then 0 else (memGet s.mem k).toNat) + 256 * s.readNat (key + 1) n

/-- The keys / 8 of the words that n bytes from a key touch, where they are held now. -/
def State.wordsAt (s : State) (key n : Nat) : List Nat := (wordsOf key n).map (fun w => s.fwd (8 * w) / 8)

/-- Some word of the n bytes from a key holds an uncorrectable error. -/
def State.badAt (s : State) (key n : Nat) : Bool :=
  !s.bad.isEmpty && (s.wordsAt key n).any (fun w => s.bad.contains w)

/-- A bank that detects an uncorrectable word writes it back as zero with a valid code (R186). -/
def State.scrub (s : State) (words : List Nat) : State :=
  if s.bad.isEmpty then s
  else words.foldl (fun s w =>
    if s.bad.contains w ∧ isScratch (8 * w) then
      { s with mem := memWrite s.mem (8 * w) 0 (bytesMask 8) 8, bad := s.bad.filter (· != w) }
    else s) s

/-- Adds to a counter that stops at 0xFFFF (R122). -/
def satAdd (x n : Nat) : Nat := min 0xFFFF (x + n)

/-- Counts uncorrectable words delivered to a core (R122). -/
def State.countUnc (s : State) (core n : Nat) : State :=
  if n = 0 then s else let c := s.core core; s.setCore core { c with unc := satAdd c.unc n }

/-- Counts a message or store of a core that was dropped (R122, R297). -/
def State.countDropM (s : State) (core : Nat) : State :=
  let c := s.core core
  s.setCore core { c with dropm := satAdd c.dropm 1 }

/-- Counts corrected errors and refetches seen by a core (R121). -/
def State.countCorr (s : State) (core n : Nat) : State :=
  if n = 0 then s else let c := s.core core; s.setCore core { c with corr := satAdd c.corr n }

/-- The correctable errors of words that a core reads are corrected in place and counted (R121). -/
def State.correct (s : State) (core : Nat) (words : List Nat) : State :=
  if s.soft.isEmpty then s
  else
    let found := words.filter (fun w => s.soft.contains w)
    { s.countCorr core found.length with soft := s.soft.filter (fun w => !found.contains w) }

/-- The homes read words for a core: its counts, the corrections and the banks' repairs (R121, R122, R186). -/
def State.readWords (s : State) (core : Nat) (words : List Nat) : State :=
  if s.bad.isEmpty && s.soft.isEmpty then s
  else ((s.countUnc core (words.filter (fun w => s.bad.contains w)).length).correct core words).scrub words

/-- The channel is not in a low state (R300). -/
def State.channelAwake (s : State) (chan : Nat) : Bool := s.power.all (fun p => p.1 != chan)

/-- The channel a home number names. -/
def channelHomed (home : Nat) : Option Nat := if 0x20000 ≤ home ∧ home < 0x20100 then some (home - 0x20000) else none

/-- Sends replies on their ports, or keeps them while a port's priority 3 is paused (R296). -/
def State.post (s : State) (l : List Reply) : State :=
  let waits (r : Reply) : Bool := s.paused.contains r.asker.port
  { s with outbox := s.outbox ++ l.filter waits, replies := s.replies ++ l.filter (fun r => !waits r) }

/-- Something arrives at a channel (R300): it wakes from a low state, and an entry to one is cancelled and answered
with status 3. -/
def State.touchChannel (s : State) (chan : Nat) : State :=
  if s.power.isEmpty && s.entering.isEmpty then s
  else
    ({ s with power := s.power.filter (fun p => p.1 != chan), entering := s.entering.filter (fun e => e.chan != chan) } : State).post
      ((s.entering.filter (fun e => e.chan == chan)).map (fun e => ⟨e.request, 3, []⟩))

/-- An access to a key arrives at its channel. -/
def State.touch (s : State) (key : Nat) : State := if isHbm key then s.touchChannel (channelOf key) else s

/-- Accesses to every part of the n bytes from a key arrive at their channels. -/
def State.touchRange (s : State) (key n : Nat) : State :=
  if s.power.isEmpty && s.entering.isEmpty then s
  else (List.range (n / 256 + 2)).foldl (fun s i => if 256 * i < n + 256 then s.touch (min (key + 256 * i) (key + n - 1)) else s) s

/-- The same for all channels but one. -/
def State.touchOthers (s : State) (chan key n : Nat) : State :=
  if s.power.isEmpty && s.entering.isEmpty then s
  else (List.range (n / 256 + 2)).foldl (fun s i =>
    let k := min (key + 256 * i) (key + n - 1)
    if 256 * i < n + 256 ∧ channelOf k ≠ chan then s.touch k else s) s

/-- A read of n bytes performed at the home for a core: the bytes, whether some were uncorrectable, and the
state with its error counts and the bank's repair (R121, R122, R186). -/
def State.readHome (s : State) (core key n : Nat) : Nat × Bool × State :=
  (s.readNat key n, s.badAt key n, s.readWords core (s.wordsAt key n))

/-- Drops the fill of the sectors that a condition names: masked bytes stay, and one without any is empty (R193). -/
def Sector.unfill (l : List Sector) (p : Sector → Bool) : List Sector :=
  (l.map (fun x => if p x then { x with fill := false, bad := 0 } else x)).filter (fun x => x.fill || x.mask != 0)

/-- A registered monitor whose granule, where it is held now, lies from lo to hi. -/
def State.watches (s : State) (lo hi : Nat) (m : Monitor) : Bool :=
  let k := s.fwd m.key
  m.registered && decide (lo ≤ k) && decide (k ≤ hi)

/-- The monitors of a thread after a write to the granules from lo to hi. -/
def State.hitMonitors (s : State) (lo hi : Nat) (t : Thread) : Thread :=
  { t with monitors := t.monitors.map (fun m => if s.watches lo hi m then { m with hit := true } else m) }

/-- Every registered monitor on a granule that the n bytes from a key touch is hit (R143, R259), and the fill of every sector that
holds the granule, under its frame's earlier address too (R281), is dropped in the armed thread's cluster cache (R193). -/
def State.monitorWrite (s : State) (key n : Nat) : State :=
  let lo := key / 64 * 64
  let hi := (key + n - 1) / 64 * 64
  let armed (c : Core) : Bool :=
    c.threads.toList.any (fun t => t.monitors.any (s.watches lo hi))
  s.cores.foldl (fun s ic =>
    if armed ic.2 then
      let c := s.core ic.1
      let s := s.setCore ic.1 { c with threads := c.threads.map (s.hitMonitors lo hi) }
      let cl := s.cluster (clusterOf ic.1)
      s.setCluster (clusterOf ic.1) { cl with sectors := Sector.unfill cl.sectors (fun x => decide (lo ≤ s.fwd x.key) && decide (s.fwd x.key ≤ hi)) }
    else s) s

/-- Every held bar.wait on a barrier whose word 0 the n bytes from a key touch, and whose phase has passed, is
answered (R256). -/
def State.barrierWrite (s : State) (key n : Nat) : State :=
  s.work.foldl (fun s w =>
    match w.body with
    | .bar 3 acc arg =>
      let k := s.fwd acc.key
      if w.arrived.isSome && decide (k < key + n) && decide (key < k + 8) &&
          memNat s.mem k 8 / 2 ^ 52 != arg.toNat % 4096 then
        (s.dropWork w.id).setThreadAt w.core w.slot { s.threadAt w.core w.slot with pend := .answered 0 }
      else s
    | _ => s) s

/-- The part of a bit mask of bytes from a key that falls to the word numbered w. -/
def wordMask (key mask w : Nat) : Nat :=
  if key ≤ 8 * w then mask / 2 ^ (8 * (8 * w - key)) % 2 ^ 64
  else mask * 2 ^ (8 * (key - 8 * w)) % 2 ^ 64

/-- The errors of the words that a write meets: a word written whole holds none afterwards, and a bank that writes part of one
reads it first and repairs it (R121, R186). DESIGN CHOICE (log 97): an HBM word that is written only in part keeps its uncorrectable
error, for which R122 gives no repair. -/
def State.writeWords (s : State) (key n mask : Nat) : State :=
  if s.bad.isEmpty && s.soft.isEmpty then s
  else
    let whole := (wordsOf key n).filter (fun w => wordMask key mask w == bytesMask 8)
    let part := (wordsOf key n).filter (fun w => wordMask key mask w != 0 && !whole.contains w)
    let s := { s with bad := s.bad.filter (fun w => !whole.contains w), soft := s.soft.filter (fun w => !whole.contains w) }
    if isScratch key then s.readWords (coreOfKey key) part else s

/-- A write of the masked bits of n bytes, performed at the home (R246, R250). -/
def State.writeHome (s : State) (key n data mask : Nat) : State :=
  let k := s.fwd key
  let s := s.writeWords k n mask
  (({ s with mem := memWrite s.mem k data mask n }).monitorWrite k n).barrierWrite k n

/-- The full/empty bit of the word at a key is full (R109). -/
def State.isFull (s : State) (key : Nat) : Bool := s.full.contains (s.fwd key / 8)

/-- Sets the full/empty bit of the word at a key. -/
def State.setFull (s : State) (key : Nat) (full : Bool) : State :=
  let w := s.fwd key / 8
  { s with full := if full then insertNat w s.full else s.full.filter (· != w) }

/-! ## Frames and regions -/

/-- A channel homes a byte of a frame: a frame of 4 KiB falls to sixteen channels of its stack, a larger one to all. -/
def frameOn (key size chan : Nat) : Bool :=
  channelOf key / 32 == chan / 32 && (size != 4096 || (List.range 16).any (fun i => channelOf (key + 256 * i) == chan))

/-- The frame of a size that holds a key is not populated whole: it lies behind a disabled channel, or passes the end of its die's
HBM (R301, log 65). -/
def State.frameDead (s : State) (key size : Nat) : Bool :=
  let k := key / size * size
  isHbm k && (decide (2 ^ 38 < k % 2 ^ 56 + size) || s.deadChannels.any (frameOn k size))

/-- The 4 KiB frame that holds a key is not populated. -/
def State.unpopulated (s : State) (key : Nat) : Bool := s.frameDead key 4096

/-- Bytes of an open update region are never cached (R240): the keys of its raw tensor's range. -/
def State.inRegion (s : State) (key n : Nat) : Bool :=
  s.regions.any (fun r =>
    match s.tensors.find? (fun t => t.handle == r.desc.handle) with
    | some t =>
      let w := widthOf t.desc.fmt / 8
      t.rawPte != 0 && t.frames.zipIdx.any (fun fi =>
        decide (fi.1 < key + n) && decide (key < fi.1 + 4096) &&
        decide (r.desc.first * w < (key + n - fi.1) + 4096 * fi.2) &&
        decide (key + 4096 * fi.2 < (r.desc.first + r.desc.count) * w + fi.1))
    | none => false)

/-- The home number of an access of a core; one that may be cached goes to its home where its sector holds bytes of an open
region (R196, R240). -/
def State.accessHome (s : State) (core : Nat) (a : Access) : Nat :=
  if a.via = .cached ∧ !s.inRegion (a.key / 64 * 64) 64 then cacheHome a.key else s.homeOf core a.key

/-! ## Items on their way: what may be performed now -/

/-- The item is a request that has not been performed. -/
def Work.request (w : Work) : Bool :=
  match w.body with
  | .ret .. | .fetch .. | .mx .. | .bank .. | .copy .. | .phRun .. | .inval .. | .debug .. | .preempt .. | .migrate .. => false
  | _ => true

/-- A later access of n bytes from a key, a store or a load, waits for the item. -/
def Work.holdsBytes (w : Work) (key n : Nat) (store : Bool) : Bool :=
  w.holds.any (fun h => decide (h.1 < key + n) && decide (key < h.1 + h.2.1) && (store || h.2.2))

/-- An access of the acting thread parks: bytes of it are to be written, or, for a store, read, by an earlier
command of the thread (R74, R126, R211, R223). -/
def State.held (s : State) (key n : Nat) (store : Bool) : Bool :=
  s.work.any (fun w => w.of s.curCore s.curSlot && w.holdsBytes key n store)

/-- An acquire of the acting thread has not been performed (R109). -/
def State.acquiring (s : State) : Bool := !(s.acquires s.curCore s.curSlot).isEmpty

/-- Makes accesses unless one of them parks. -/
def unlessHeld (s0 s : State) (accs : List Access) (store : Bool) (k : State → Out) : Out :=
  if accs.any (fun a => s.held a.key a.n store) then .next s0.park else k s

/-- The sectors of global memory that a load, a store or an operation at a home touches. -/
def Work.globalSectors (w : Work) : List Nat :=
  let of (a : Access) : List Nat := if a.via = .scratch then [] else [a.key / 64]
  match w.body with
  | .load (a :: _) .. => of a
  | .store a .. => of a
  | .amo _ a .. => of a
  | .fut _ a _ _ r => of a ++ (match r with | some b => of { b with key := b.key + 56 } | none => [])
  | _ => []

/-- The item is a write-back of a sector of a cluster. -/
def Work.writesBack (x : Work) (cluster key : Nat) : Bool :=
  match x.body with
  | .writeBack c k .. => c == cluster && k == key
  | _ => false

/-- The item is a full/empty access: it arrives at its bank whatever it waits for, and waits there (R142). -/
def Work.isFe (w : Work) : Bool := match w.body with | .fe .. => true | _ => false

/-- The item is a release: it is sent once the fence of its scope would be complete (R111, R247). -/
def Work.release (w : Work) : Bool :=
  match w.body with
  | .fe op .. => op == .stEf || op == .stF
  | .bar op .. => op == 1 || op == 2
  | .fut op .. => op == 2 || op == 3
  | .msg .. | .launch .. | .item .. | .done .. | .seal .. | .resolve .. => true
  | _ => false

/-- The item has not been sent yet. -/
def Work.unsent (w : Work) : Bool := w.request && !w.isFe && (!w.deps.isEmpty || w.flush.isSome)

/-- The item's next event sends it: it is a release that has not been sent (R111). -/
def Work.sending (w : Work) : Bool := w.release && (w.unsent || w.flush.isSome)

/-- The source of an item (R247, R248): a core for its threads, those that have ended among them, and its write-backs, or an engine
context. -/
def Work.source (w : Work) : Nat × Nat := (w.core, if w.slot < 17 ∨ 32 ≤ w.slot then 0 else w.slot)

/-- Two items keep their order: one source and one home (R247), one thread and one sector of global memory (R72), or write-backs
of one sector. -/
def Work.ordered (x w : Work) : Bool :=
  (x.source == w.source && x.home == w.home && (decide (x.home < 2 ^ 80) || x.slot == w.slot)) ||
  (x.of w.core w.slot && x.globalSectors.any (w.globalSectors.contains ·)) ||
  (match x.body with | .writeBack c k .. => w.writesBack c k | _ => false)

/-- Once it has arrived, the item lets later ones of its source pass: it waits at its home by its nature. -/
def Work.passable (w : Work) : Bool :=
  match w.body with
  | .load .. | .store .. | .amo .. | .fut .. | .monArm .. | .pair .. | .flush .. | .writeBack .. => false
  | _ => true

/-- An earlier item keeps a later one back: one that has been sent and not performed, or, for a later item of its own thread,
one not sent yet, but that a later item passes a release that still waits unless it is a release itself (R72, R247), and a full/empty
access arrives whatever still waits (R142, R145). -/
def Work.blocks (x w : Work) : Bool :=
  x.request && x.ordered w &&
    (if x.unsent then x.of w.core w.slot && !w.isFe && (!x.release || w.release) else x.arrived.isNone || !x.passable)

/-- The items before an item, in the order of sending. -/
def State.before (s : State) (w : Work) : List Work := s.work.takeWhile (fun x => x.id != w.id)

/-- No earlier item keeps the item back (R72, R247). -/
def State.foremost (s : State) (w : Work) : Bool := (s.before w).all (fun x => !x.blocks w)

/-- Everything an item must wait for has left, and its turn has come (R109, R111, R247). -/
def State.clear (s : State) (w : Work) : Bool := (w.isFe || s.gone w.deps) && s.foremost w

/-- A release is sent: its conditions hold. -/
def State.sendNow (s : State) (w : Work) : State :=
  { s with work := s.work.filter (fun x => x.id != w.id) ++ [{ w with deps := [], flush := none }] }

/-- A core has sent something to the home of a key that has not been performed there (R247, R289). -/
def State.homeBusy (s : State) (core key : Nat) : Bool :=
  s.work.any (fun x => x.request && x.source == (core, 0) && x.home == s.homeOf core key && !x.unsent && (x.arrived.isNone || !x.passable))

/-! ## The lanes of a gather or scatter (R183) -/

/-- The item of a number is an access that has not been performed. -/
def State.pendingAccess (s : State) (id : Nat) : Bool := (s.findWork id).any (fun w => w.request && w.body.accesses)

/-- The item is an access of a thread to a bank of its own core, and some lanes of another thread's run to those banks have been
performed and some not: it comes before or after the run (R183). -/
def State.betweenLanes (s : State) (w : Work) : Bool :=
  w.body.accesses && decide (w.home = 0x10000 + w.core) && decide (w.slot < 16 ∨ 32 ≤ w.slot) &&
  (s.core w.core).laneRuns.any (fun run => !run.contains w.id && run.any (fun i => !s.pendingAccess i) &&
    run.any (fun i => (s.findWork i).any (fun x => x.request && x.slot != w.slot)))

/-- The lanes of a vector access, sent under the numbers from one to another, whose home is the core's own banks enter its order as one run
(R183). A run of which nothing is left is forgotten. -/
def State.laneRun (s : State) (core first stop : Nat) : State :=
  let mine := (s.work.filter (fun w => decide (first ≤ w.id ∧ w.id < stop) && w.home == 0x10000 + core)).map (·.id)
  if mine.length < 2 then s
  else
    let c := s.core core
    let kept (i : Nat) : Bool := s.pendingAccess i || c.threads.toList.any (fun t => t.withdrawn.any (fun w => w.id == i))
    s.setCore core { c with laneRuns := c.laneRuns.filter (·.any kept) ++ [mine] }

/-! ## The cluster data cache (R193-R196) -/

/-- The sector of a cluster that holds a key. -/
def Cluster.sector (c : Cluster) (key : Nat) : Option Sector := c.sectors.find? (fun x => x.key == key / 64 * 64)

/-- Puts a sector in a cluster's cache; one that is empty leaves it. -/
def Cluster.putSector (c : Cluster) (x : Sector) : Cluster :=
  let rest := c.sectors.filter (fun y => y.key != x.key)
  if x.mask = 0 ∧ !x.fill then { c with sectors := rest } else { c with sectors := x :: rest }

/-- Bytes [off + n - 1:off] of a 64-byte line, as a number. -/
def lineBytes (x : VWord) (off n : Nat) : Nat := x.toNat / 2 ^ (8 * off) % 2 ^ (8 * n)

/-- The 64-bit byte mask of n bytes from an offset. -/
def byteMask (off n : Nat) : BitVec 64 := BitVec.ofNat 64 ((2 ^ n - 1) * 2 ^ off)

/-- The 512-bit mask of the bytes that a byte mask names. -/
def spread (m : BitVec 64) : VWord :=
  BitVec.ofNat 512 (packCodes 8 ((List.range 64).map (fun i => if m.getLsbD i then 255 else 0)))

/-- Takes the bytes of a mask from x and the others from y. -/
def mergeBytes (m : BitVec 64) (x y : VWord) : VWord := (x &&& spread m) ||| (y &&& ~~~(spread m))

/-- The bytes of a mask are all in the sector for a thread whose latest acquire was at a moment (R109, R194). -/
def Sector.serves (x : Sector) (m : BitVec 64) (acquired : Nat) : Bool :=
  (x.fill && decide (acquired ≤ x.filled)) || (x.mask &&& m == m)

/-- The mask of the bytes of a line whose home holds an uncorrectable error (R122). -/
def State.badBytes (s : State) (key : Nat) : BitVec 64 :=
  if s.bad.isEmpty then 0
  else ((List.range 8).map (fun i => if s.badAt (key + 8 * i) 8 then byteMask (8 * i) 8 else 0)).foldl (· ||| ·) 0

/-- Fills a sector from its home: fetched bytes replace only those whose M bit is clear (R194). What it refetches holds no
parity error (R195). -/
def State.fillSector (s : State) (core key : Nat) (trans : List Trans) : State :=
  let k := key / 64 * 64
  let s := (s.touch key).correct core (s.wordsAt k 64)
  let cl := s.cluster (clusterOf core)
  let old := (cl.sector k).getD { key := k }
  let s := { s with parity := s.parity.filter (· != (clusterOf core, k / 64)) }
  s.setCluster (clusterOf core) (cl.putSector { old with
    fill := true, filled := s.tick, data := mergeBytes old.mask old.data (BitVec.ofNat 512 (s.readNat k 64)),
    bad := s.badBytes k &&& ~~~old.mask, trans := trans ++ old.trans })

/-- Counts a configured event at a core (R342). -/
def State.countEvent (s : State) (core ev n : Nat) : State :=
  let c := s.core core
  if c.evSel.toList.all (fun x => x.toNat != ev) then s
  else s.setCore core { c with evCount := Vector.ofFn (fun i =>
    if c.evSel[i].toNat = ev then c.evCount[i] + BitVec.ofNat 64 n else c.evCount[i]) }

/-- The highest core position in a writer set. -/
def highestWriter (w : BitVec 16) : Nat := Nat.log2 w.toNat

/-- The words of a line, 0 to 7, that bytes of a mask fall to. -/
def wordsOfMask (m : BitVec 64) : List Nat := (List.range 8).filter (fun i => m &&& byteMask (8 * i) 8 != 0)

/-- The dirty words of a sector that hold an uncorrectable error, as a mask of bytes (R195). -/
def State.dirtyErrors (s : State) (cluster : Nat) (x : Sector) : BitVec 64 :=
  if s.dirtyBad.isEmpty then 0
  else ((wordsOfMask x.mask).map (fun i => if s.dirtyBad.contains (cluster, x.key / 8 + i) then byteMask (8 * i) 8 else 0)).foldl
    (· ||| ·) 0

/-- The sector as it is read: an uncorrectable dirty word is zero (R122, R195), filled bytes of it too. -/
def State.asRead (s : State) (cluster : Nat) (x : Sector) : Sector :=
  { x with data := x.data &&& ~~~(spread (s.dirtyErrors cluster x)) }

/-- The correctable errors of a sector's dirty words among those numbered are corrected, and counted at a core (R121). -/
def State.correctDirty (s : State) (core cluster key : Nat) (words : List Nat) : State :=
  if s.dirtySoft.isEmpty then s
  else
    let found := words.filter (fun i => s.dirtySoft.contains (cluster, key / 8 + i))
    { s.countCorr core found.length with
      dirtySoft := s.dirtySoft.filter (fun p => !(p.1 == cluster && found.any (fun i => p.2 == key / 8 + i))) }

/-- The sector's line as bytes of a mask are delivered from it to a core, and whether some are uncorrectable: such a word is
delivered as zero and counted (R121, R122, R195). -/
def State.serve (s : State) (core : Nat) (x : Sector) (m : BitVec 64) : VWord × Bool × State :=
  let err := (s.dirtyErrors (clusterOf core) x ||| (x.bad &&& ~~~x.mask)) &&& m
  ((s.asRead (clusterOf core) x).data, err != 0,
    (s.countUnc core (wordsOfMask err).length).correctDirty core (clusterOf core) x.key (wordsOfMask (m &&& x.mask)))

/-- The words of a sector hold no dirty error any more: they have been written back, discarded or written whole. -/
def State.forgetDirty (s : State) (cluster key : Nat) (words : List Nat) : State :=
  let stays (p : Nat × Nat) : Bool := !(p.1 == cluster && words.any (fun i => p.2 == key / 8 + i))
  if s.dirtyBad.isEmpty && s.dirtySoft.isEmpty then s
  else { s with dirtyBad := s.dirtyBad.filter stays, dirtySoft := s.dirtySoft.filter stays }

/-- Starts the write-back of a sector's masked bytes and clears M and W (R194); the message carries the highest
core of the writer set (R248). DESIGN CHOICE (log 98): the corrections that the write-back makes count at that core. An
uncorrectable word is written back as zero in its masked bytes, which read as zero afterwards; its filled bytes stay as they are
(R195). -/
def State.startWriteBack (s : State) (cluster : Nat) (x : Sector) : State :=
  if x.mask = 0 then s
  else
    let core := cluster * 16 + highestWriter x.writers
    let x := { x with data := x.data &&& ~~~(spread (s.dirtyErrors cluster x &&& x.mask)) }
    let s := (s.correctDirty core cluster x.key (List.range 8)).forgetDirty cluster x.key (List.range 8)
    let s := s.addWork ⟨0, core, 16, s.homeOf core x.key, [], s.tick, 0, false, none, none, .clean, [],
      .writeBack cluster x.key x.data x.mask x.writers x.trans⟩
    let cl := s.cluster cluster
    s.setCluster cluster (cl.putSector { x with mask := 0, writers := 0 })

/-- Starts the write-backs of every sector of a cluster that a condition names. -/
def State.writeBackAll (s : State) (cluster : Nat) (p : Sector → Bool) : State :=
  ((s.cluster cluster).sectors.filter p).foldl (fun s x => s.startWriteBack cluster x) s

/-- Drops the fill of every sector of a cluster (R193). -/
def State.dropFills (s : State) (cluster : Nat) : State :=
  let cl := s.cluster cluster
  s.setCluster cluster { cl with sectors := Sector.unfill cl.sectors (fun _ => true) }

/-- Empties a sector. -/
def State.emptySector (s : State) (cluster key : Nat) : State :=
  let cl := s.cluster cluster
  let s := { s with parity := s.parity.filter (· != (cluster, key / 64)) }
  (s.setCluster cluster { cl with sectors := cl.sectors.filter (fun x => x.key != key / 64 * 64) }).forgetDirty cluster
    (key / 64 * 64) (List.range 8)

/-- A write-back on its way is performed: its home writes its masked bytes as one indivisible step (R194), or it is dropped and
counted where its path is lost (R297). -/
def State.performWriteBack (s : State) (w : Work) : State :=
  match w.body with
  | .writeBack _ key data mask _ _ =>
    (if s.pathLive w.home then s.writeHome key 64 data.toNat (spread mask).toNat else s.countDropM w.core).dropWork w.id
  | _ => s

/-- The write-backs of the sector of a key on their way from a core's cluster. -/
def State.writeBacksAt (s : State) (core key : Nat) : List Nat :=
  (s.work.filter (fun w => w.writesBack (clusterOf core) (key / 64 * 64))).map (·.id)

/-- A write-back of the sector of a key is on its way from a core's cluster. -/
def State.sectorBusy (s : State) (core key : Nat) : Bool := !(s.writeBacksAt core key).isEmpty

/-- A read that follows addresses from memory first has the issuing cluster's sector that holds its bytes written back and then emptied
(R196). The write-back takes its place among what its core sends (R247, R289), and the read takes the bytes that it carries (log 81). -/
def State.settleSector (s : State) (core key : Nat) : State :=
  let cl := clusterOf core
  let k := key / 64 * 64
  match (s.cluster cl).sector k with | some x => (s.startWriteBack cl x).emptySector cl k | none => s

/-- The same for every sector that holds some of n bytes from a key. -/
def State.settleRange (s : State) (core key n : Nat) : State :=
  ((s.cluster (clusterOf core)).sectors.filter (fun x => decide (x.key < key + n) && decide (key < x.key + 64))).foldl
    (fun s x => s.settleSector core x.key) s

/-- A number with the bits of a mask taken from another. -/
def mixBits (x d m : Nat) : Nat := x ^^^ ((x ^^^ d) &&& m)

/-- The n bytes from a key as they are once the write-backs of a core's cluster on their way have been performed. -/
def State.withWriteBacks (s : State) (core key n x : Nat) : Nat :=
  s.work.foldl (fun x w =>
    match w.body with
    | .writeBack c k data mask _ _ =>
      if c = clusterOf core ∧ k < key + n ∧ key < k + 64 then
        let up := 2 ^ (8 * (k - key))
        let down := 2 ^ (8 * (key - k))
        mixBits x (data.toNat * up / down) ((spread mask).toNat * up / down % 2 ^ (8 * n))
      else x
    | _ => x) x

/-- A read at the home, for a core, that follows addresses from memory: n bytes, the write-backs of its cluster that precede it among
them (R196, log 81). -/
def State.followRead (s : State) (core key n : Nat) : Nat × State :=
  let s := s.settleRange core key n
  let (x, _, s) := s.readHome core key n
  (s.withWriteBacks core key n x, s)

/-- The items in flight that write back bytes of a core and whose home lies within a scope (R112). -/
def State.writeBacksOf (s : State) (core scope : Nat) : List Nat :=
  (s.work.filter (fun w => match w.body with
    | .writeBack c k _ _ wr _ => c == clusterOf core && wr.getLsbD (posOf core) && decide (s.scope core k ≤ scope)
    | _ => false)).map (·.id)

/-! ## Performing a load, a store and an atomic -/

/-- The mask of an access's bytes in its line. -/
def Access.mask (a : Access) : BitVec 64 := byteMask (a.key % 64) a.n

/-- A load of filled bytes of a sector finds a parity error (R195). -/
def State.parityHit (s : State) (core : Nat) (a : Access) (x : Sector) : Bool :=
  x.fill && s.parity.contains (clusterOf core, a.key / 64) && !(x.mask &&& a.mask == a.mask)

/-- The sector held serves a load: every byte is there and none of those filled has a parity error (R193-R195). -/
def State.sectorServes (s : State) (core slot : Nat) (a : Access) : Bool :=
  ((s.cluster (clusterOf core)).sector a.key).any
    (fun x => x.serves a.mask (s.threadAt core slot).acquired && !s.parityHit core a x)

/-- The sector that serves a load: the one held, or, where it does not serve it, as it is once it has been filled (R193-R195). -/
def State.sectorFor (s : State) (core slot : Nat) (a : Access) : Sector × State :=
  let held := (s.cluster (clusterOf core)).sector a.key
  let s := if s.sectorServes core slot a then s
    else ((if held.any (s.parityHit core a) then s.countCorr core 1 else s).countEvent core 1 1).fillSector core a.key a.trans
  (((s.cluster (clusterOf core)).sector a.key).getD { key := a.key / 64 * 64 }, s)

/-- A part of a load is served by the issuing cluster's cache. -/
def State.fromCache (s : State) (a : Access) : Bool := a.via == .cached && !s.inRegion (a.key / 64 * 64) 64

/-- A load that its sector does not serve waits for the sector's write-backs on their way: what it fetches holds their bytes (R72,
R194). -/
def State.fillWaits (s : State) (core slot : Nat) (a : Access) : Bool :=
  s.fromCache a && s.sectorBusy core a.key && !s.sectorServes core slot a

/-- The bytes of one part of a load, sent to a home, as the issuing core sees them at this moment: from the cluster's sector, or
from the home, filling the sector when the type allows it (R193, R194, R249, R251); zero where the path is lost (R297). -/
def State.loadPart (s : State) (core slot home : Nat) (a : Access) : Nat × Bool × State :=
  if !s.arrives core home a.key then (0, true, s.countUnc core (wordsOf a.key a.n).length)
  else if s.fromCache a then
    let (x, s) := s.sectorFor core slot a
    let (line, bad, s) := s.serve core x a.mask
    (lineBytes line (a.key % 64) a.n, bad, s)
  else s.readHome core a.key a.n

/-- A store performed: into the cluster's sector, or at the home (R194, R250); it is dropped where the path is lost (R297). A sector without
a clean byte left has no parity error (R195). -/
def State.storePart (s : State) (core home : Nat) (a : Access) (data mask : Nat) : State :=
  if s.fromCache a then
    let cl := s.cluster (clusterOf core)
    let k := a.key / 64 * 64
    let old := (cl.sector k).getD { key := k }
    let d : VWord := BitVec.ofNat 512 (data * 2 ^ (8 * (a.key % 64)))
    let whole := (List.range 8).filter (fun i => byteMask (8 * i) 8 &&& ~~~a.mask == 0)
    let s : State := if old.mask ||| a.mask = BitVec.allOnes 64 then { s with parity := s.parity.filter (· != (clusterOf core, k / 64)) } else s
    (s.setCluster (clusterOf core) (cl.putSector { old with
      mask := old.mask ||| a.mask, writers := old.writers ||| ((1 : BitVec 16) <<< posOf core),
      data := mergeBytes a.mask d old.data, bad := old.bad &&& ~~~a.mask, trans := a.trans ++ old.trans })).forgetDirty
      (clusterOf core) k whole
  else if s.arrives core home a.key then s.writeHome a.key a.n data mask
  else s.countDropM core

/-- The new value of an atomic, or none where nothing is written (R253). -/
def amoNew (op : AmoOp) (n old x e : Nat) : Option Nat :=
  let w := 8 * n
  match op with
  | .add => some ((old + x) % 2 ^ w)
  | .and => some (old &&& x)
  | .or => some (old ||| x)
  | .xor => some (old ^^^ x)
  | .min => some (if sext old w ≤ sext x w then old else x)
  | .max => some (if sext old w ≤ sext x w then x else old)
  | .minu => some (min old x)
  | .maxu => some (max old x)
  | .swap => some x
  | .cas => if old = e then some x else none

/-- The value a loaded number becomes in its register, with the flags of its decoding (R107, R108, R181). -/
def extendLoad (ext : Extend) (n x : Nat) : VWord × FFlags :=
  match ext with
  | .zero => (BitVec.ofNat 512 x, 0)
  | .sign => (BitVec.ofNat 512 (wrap (sext x (8 * n)) 64), 0)
  | .raw => (BitVec.ofNat 512 x, 0)
  | .lane i => (BitVec.ofNat 512 (x % 2 ^ 32 * 2 ^ (32 * i)), 0)
  | .window e bit count plane draws =>
    let en := entryOf e
    let vs := if plane then planeVals en.efmt en.sfmt (planeOfNat x en.len en.planes)
      else (unpackCodes en.width (x / 2 ^ bit) count).map (fun c => blockVal en.efmt en.sfmt (x % 256) c)
    let (cs, g) := en.toF32 draws vs
    (BitVec.ofNat 512 (packCodes 32 (cs.take count)), g)

/-! ## What a fence and a release wait for (R111, R112) -/

/-- A fence of a scope by a core waits for this item of its thread. Where R111 names cached stores only, the model takes a store
that never enters the cache like them where the scope does not hold its home: .core and .cl do not wait for an uncached global
store, nor .die for one homed off the die (log 67). -/
def State.heldBy (s : State) (scope core : Nat) (w : Work) : Bool :=
  w.isResult ||
  match w.body with
  | .store a .. => w.home == cacheHome a.key || decide (s.scope core a.key ≤ scope)
  | .fe op a .. => (op == .stEf || op == .stF) && decide (s.scope core a.key ≤ scope)
  | .bank .. => true
  | .handle (.cpT ..) _ | .handle (.operand ..) _ => false
  | .handle .. => true
  | .pair _ c .. => decide ((if c / 128 = dieOf core then 2 else 3) ≤ scope)
  | _ => false

/-- The items of the acting thread that a fence or release of a scope waits for (R111). -/
def State.releaseDeps (s : State) (scope : Nat) : List Nat :=
  (s.work.filter (fun w => w.of s.curCore s.curSlot && s.heldBy scope s.curCore w)).map (·.id)

/-- Sends a release of the acting thread at a scope: it is performed after the thread's earlier work, and, at .die
or .sys, after the core's dirty sectors have been written back (R111, R112). -/
def State.sendRelease (s : State) (scope home : Nat) (acquire : Bool) (body : Body) : State :=
  s.addWork { s.item home (s.releaseDeps scope) acquire body with flush := if 2 ≤ scope then some scope else none }

/-- Starts the write-backs a release of scope .die or .sys makes, and what it then waits for (R112, R290). -/
def State.flushFor (s : State) (core scope : Nat) : List Nat × State :=
  let s := s.writeBackAll (clusterOf core) (fun x => x.writers.getLsbD (posOf core))
  (s.writeBacksOf core scope, s)

/-! ## Lines -/

/-- Cuts n bytes from a key into their parts within aligned 64-byte lines: key, length and offset of each. -/
def cutLines (key n off : Nat) : Nat → List (Nat × Nat × Nat)
  | 0 => []
  | k + 1 =>
    if n = 0 then [] else
    let m := min n (64 - key % 64)
    (key, m, off) :: cutLines (key + m) (n - m) (off + m) k

/-- Writes the masked bits of n bytes from a key at their homes, line by line. -/
def State.writeBytes (s : State) (key n data mask : Nat) : State :=
  (cutLines key n 0 (n / 64 + 2)).foldl (fun s p =>
    s.writeHome p.1 p.2.1 (data / 2 ^ (8 * p.2.2) % 2 ^ (8 * p.2.1)) (mask / 2 ^ (8 * p.2.2) % 2 ^ (8 * p.2.1))) s

/-- Bit fields of a block read as a little-endian number: bytes lo to hi. -/
def byteField (x hi lo : Nat) : Nat := bits x (8 * hi + 7) (8 * lo)

end Sys2Proof.Machine
end

