-- ==== Sys2Proof/Machine/Phrase.lean ====
section
/-! DEFINITION. Phrase blocks: their checks and their evaluation (06 R86-R89, 16 R225). -/

set_option Elab.async false

namespace Sys2Proof.Machine

open Sys2Proof

/-- An operator byte: the operands it needs and how many entries it adds less those it takes (R87). -/
def opShape (b : Nat) : Option (Nat × Int) :=
  if 0x10 ≤ b ∧ b ≤ 0x12 then some (0, 1)
  else if 0x20 ≤ b ∧ b ≤ 0x23 then some (0, 1)
  else if b = 0x30 ∨ b = 0x31 ∨ b = 0x32 ∨ b = 0x34 ∨ b = 0x35 then some (2, -1)
  else if b = 0x33 ∨ b = 0x54 then some (3, -2)
  else if 0x40 ≤ b ∧ b ≤ 0x43 then some (1, 0)
  else if 0x50 ≤ b ∧ b ≤ 0x53 then some (2, -1)
  else if b = 0x60 ∨ b = 0x61 then some (1, 0)
  else if b = 0x68 then some (1, 1)
  else if b = 0x69 then some (2, 0)
  else if b = 0x6A ∨ b = 0x70 then some (1, -1)
  else none

/-- The stack discipline of the operators from a depth: never below zero or above 4, one entry before STORE, and
STORE last and only there (R88). -/
def opsOk (nh : Nat) : Int → List Nat → Bool
  | _, [] => false
  | d, b :: r =>
    match opShape b with
    | none => false
    | some (need, delta) =>
      decide ((need : Int) ≤ d) && decide (d + delta ≤ 4) &&
      !(decide (0x10 ≤ b) && decide (b ≤ 0x12) && decide (nh ≤ b - 0x10)) &&
      (if b = 0x70 then r.isEmpty && d == 1 else opsOk nh (d + delta) r)

/-- A phrase block read as a 64-byte number, if it passes R88. -/
def phraseOf (x : Nat) : Option Phrase :=
  let nops := byteField x 0 0
  let nh := byteField x 1 1
  let ops := (List.range nops).map (fun i => byteField x (4 + i) (4 + i))
  let p : Phrase := ⟨ops, nh, (List.range 4).map (fun i => BitVec.ofNat 32 (byteField x (35 + 4 * i) (32 + 4 * i))),
    byteField x 55 48, byteField x 63 56⟩
  if decide (1 ≤ nops ∧ nops ≤ 24 ∧ 1 ≤ nh ∧ nh ≤ 3) && opsOk nh 0 ops && byteField x 3 2 == 0 &&
      byteField x 31 (4 + nops) == 0 && (decide (2 ≤ nh) || p.h1 == 0) && (nh == 3 || p.h2 == 0)
  then some p else none

/-- A value rounded to FP32 by RoundRNE, with the flags before it. -/
def rneF32 (r : Val × FFlags) : Lane × FFlags :=
  let (c, g) := round fp32 .rne false 0 r.1
  (BitVec.ofNat 32 c, r.2 ||| g)

/-- A comparison's result as 1.0 or +0. -/
def oneOrZero (r : Bool × FFlags) : Lane × FFlags := (if r.1 then 0x3F800000 else 0, r.2)

/-- One operator on the stack, its top first (R87). `elem` gives the operand handles' elements as decoded, and
`f0` is the element format of handle 0. DESIGN CHOICE (log 108): where CVT's decoded value is no FP32 value (a large INT32), it is
rounded to FP32 to nearest even, by CVT.RTZ too, and the flag of that rounding is raised with the first one's. -/
def opStep (f0 : Fmt) (k : List Lane) (elem : Nat → Val) (st : List Lane) (b : Nat) : List Lane × FFlags :=
  let push (r : Lane × FFlags) (rest : List Lane) : List Lane × FFlags := (r.1 :: rest, r.2)
  let cvt (mode : Mode) (x : Lane) : Lane × FFlags :=
    let (c, g) := round f0 mode true 0 (f32 x)
    let (l, h) := rneF32 (decode f0 c, 0)
    (l, g ||| h)
  match b, st with
  | 0x30, y :: x :: r => push (rneF32 (addV .rne (f32 x) (f32 y))) r
  | 0x31, y :: x :: r => push (rneF32 (addV .rne (f32 x) (f32 y).negate)) r
  | 0x32, y :: x :: r => push (rneF32 (mulV (f32 x) (f32 y))) r
  | 0x33, z :: y :: x :: r => push (rneF32 (fmaV .rne (f32 x) (f32 y) (f32 z))) r
  | 0x34, y :: x :: r => push (minmax false x y) r
  | 0x35, y :: x :: r => push (minmax true x y) r
  | 0x40, x :: r => push (x ^^^ 0x80000000, 0) r
  | 0x41, x :: r => push (x &&& 0x7FFFFFFF, 0) r
  | 0x42, x :: r => push (rneF32 (exp2V (f32 x))) r
  | 0x43, x :: r => push (rneF32 (rcpV (f32 x))) r
  | 0x50, y :: x :: r => push (oneOrZero (cmpEqF x y)) r
  | 0x51, y :: x :: r => push (oneOrZero (cmpLtF x y)) r
  | 0x52, y :: x :: r => push (oneOrZero (cmpLeF x y)) r
  | 0x53, y :: x :: r => push (oneOrZero (cmpUnF x y)) r
  | 0x54, p :: y :: x :: r => push (if p &&& 0x7FFFFFFF = 0 then y else x, (f32 p).sig) r
  | 0x60, x :: r => push (cvt .rne x) r
  | 0x61, x :: r => push (cvt .rtz x) r
  | 0x68, x :: r => (x :: x :: r, 0)
  | 0x69, y :: x :: r => (x :: y :: r, 0)
  | 0x6A, _ :: r => (r, 0)
  | b, st =>
    if 0x10 ≤ b ∧ b ≤ 0x12 then push (rneF32 (elem (b - 0x10), 0)) st
    else if 0x20 ≤ b ∧ b ≤ 0x23 then (k[b - 0x20]?.getD 0 :: st, 0)
    else (st, 0)

/-- The value that STORE stores, as FP32, with the flags of the evaluation (R87, R89). -/
def evalOps (f0 : Fmt) (k : List Lane) (elem : Nat → Val) : List Lane → FFlags → List Nat → Lane × FFlags
  | st, g, [] => (st.headD 0, g)
  | st, g, b :: r =>
    let (st, h) := opStep f0 k elem st b
    evalOps f0 k elem st (g ||| h) r

/-- Evaluates a phrase for one element. -/
def Phrase.eval (p : Phrase) (f0 : Fmt) (elem : Nat → Val) : Lane × FFlags := evalOps f0 p.k elem [] 0 p.ops

/-- Combine(b, v) under a region's phrase: the held value is element 0 and the arriving one element 1, and the
result is rounded to the region's element format (R225). -/
def Phrase.combine (p : Phrase) (f0 : Fmt) (held arriving : Val) : Nat × FFlags :=
  let (x, g) := p.eval f0 (fun h => if h = 0 then held else arriving)
  let (c, h) := round f0 .rne false 0 (f32 x)
  (c, g ||| h)

end Sys2Proof.Machine
end

