-- ==== Sys2Proof/Machine/Tensor.lean ====
section
/-! DEFINITION. Tensors: handles, views, representations, frames and elements (04 R51-R61, 05 R62-R68, 11 R154). -/

set_option Elab.async false

namespace Sys2Proof.Machine

open Sys2Proof

/-! ## Fresh names -/

/-- The least nonzero number that is not used. -/
def leastFree (used : List Nat) : Nat :=
  (((List.range (used.length + 1)).map (· + 1)).find? (fun n => !used.contains n)).getD 0

/-- A name the manual leaves open: a free value if it is nonzero, below the bound and not used, else the least
number that is (log 6). -/
def State.freshName (s : State) (used : List Nat) (bound : Nat) : Nat × State :=
  let (d, s) := s.draw
  let d := d % bound
  (if d = 0 ∨ used.contains d then leastFree used else d, s)

/-! ## The chooser (R63-R65) -/

/-- A set that declares an incompatible pair (R63). -/
def incompatible (ops : Nat) : Bool :=
  (ops.testBit 9 && (ops.testBit 5 || ops.testBit 6 || ops.testBit 10 || ops.testBit 11)) ||
  (ops.testBit 4 && (ops.testBit 10 || ops.testBit 11)) || (ops.testBit 10 && ops.testBit 11)

/-- The chooser (R65). -/
def chooser (ops fmt : Nat) : Rep :=
  ⟨if ops.testBit 9 ∨ ops.testBit 3 ∨ ops.testBit 4 then .lin
    else if (ops.testBit 5 || ops.testBit 6) && (naturalPlanes (elemCode fmt)).isSome then .plane
    else if (familyOf fmt).isSome then .blocked else .tiled64,
   if ops.testBit 11 then .sliced else if ops.testBit 4 then .dieLocal else .striped,
   ops.testBit 10⟩

/-- The elements of a block: of the format's family, or of a plane-form block of any other format (R64, R154). -/
def blockLen (fmt : Nat) : Nat := match familyOf fmt with | some f => f.len | none => 32

/-- The element count of a descriptor. -/
def TensorDesc.count (d : TensorDesc) : Nat := d.dims.foldl (· * ·) 1

/-- The byte size of n consecutive elements in a layout (R64, R67). -/
def layoutBytes (l : Layout) (fmt n : Nat) : Nat :=
  let w := widthOf fmt
  match l, familyOf fmt with
  | .lin, none => ceilDiv (n * w) 8
  | .lin, some f => ceilDiv n f.len * (1 + f.len * w / 8)
  | .tiled64, _ => ceilDiv n 64 * roundUp (8 * w) 64
  | .plane, _ => ceilDiv n (blockLen fmt) * roundUp (planeBytes (blockLen fmt) ((naturalPlanes (elemCode fmt)).getD 0)) 8
  | .blocked, _ => ceilDiv n (blockLen fmt) * (1 + blockLen fmt)

/-- The 4 KiB frames of n elements in a layout. -/
def layoutFrames (l : Layout) (fmt n : Nat) : Nat := ceilDiv (layoutBytes l fmt n) 4096

/-- Elements of the lower half of a sliced tensor (R64). -/
def TensorDesc.lower (d : TensorDesc) : Nat :=
  let e := d.dims.headD 1
  ceilDiv e 2 * (d.count / e)

/-- The stacks, die * 4 + stack, that the frames of one copy fall to, in order (R64). R64 says that the frames rotate and not where
the rotation begins: the model begins every striped copy, and each half of a sliced one, at stack 0 of its die (log 69). -/
def copyStacks (r : Rep) (d : TensorDesc) (die stack : Nat) : List Nat :=
  match r.placement with
  | .dieLocal => List.replicate (layoutFrames r.layout d.fmt d.count) (die * 4 + stack)
  | .striped => (List.range (layoutFrames r.layout d.fmt d.count)).map (fun i => die * 4 + i % 4)
  | .sliced =>
    (List.range (layoutFrames r.layout d.fmt d.lower)).map (fun i => i % 4) ++
    (List.range (layoutFrames r.layout d.fmt (d.count - d.lower))).map (fun i => 4 + i % 4)

/-- Frames of a stack that a tensor may draw (log 9). -/
def stackFrames : Nat := 2 ^ 23

/-- A half of a stack's frames lies behind a disabled channel (R233, R301): frame i falls to the channels of half i mod 2, turned
over in every other 32 of them. -/
def State.halfDead (s : State) (st half : Nat) : Bool := s.deadChannels.any (fun c => c / 32 == st && c % 32 / 16 == half)

/-- Frames of a stack from number i up that are populated. -/
def State.populatedFrom (s : State) (st i : Nat) : Nat :=
  let half := (i + i / 32) % 2
  match s.halfDead st half, s.halfDead st (1 - half) with
  | false, false => stackFrames - i
  | true, true => 0
  | dead, _ => (stackFrames - i + (if i % 2 = 1 ∧ dead then 0 else 1)) / 2

/-- The stack of a frame's key. -/
def stackOf (key : Nat) : Nat := key / 2 ^ 56 % 2 * 4 + key / 2 ^ 36 % 4

/-- The ranges of physical memory that an item has still to access. -/
def Work.spans (w : Work) : List (Nat × Nat) :=
  let of (l : List Access) : List (Nat × Nat) := l.map (fun a => (a.key, a.n))
  let array (cmd : MxCmd) : List (Nat × Nat) :=
    match cmd with
    | .mma _ a b _ _ => (match a with | .memory l => of l | .view _ => []) ++ (match b with | .memory l => of l | .view _ => [])
    | _ => []
  match w.body with
  | .load parts .. => of parts
  | .store a .. | .fe _ a .. | .amo _ a .. | .bar _ a _ | .resolve a .. => of [a]
  | .fut _ a _ _ r => of (a :: r.toList.map (fun b => { b with n := 64 }))
  | .writeBack _ k .. | .monArm _ k _ => [(k, 64)]
  | .mx _ _ cmd | .handle (.operand _ _ cmd ..) _ => array cmd
  | .copy j => j.granules.flatMap (fun g => (g.src ++ g.dst).map (fun p => (p.1, p.2.1))) ++ of j.target.toList ++
      (j.status, 8) :: (j.faddr.toList.map (·, 8))
  | .phRun r => of (r.dst ++ r.src1 ++ r.src2)
  | .migrate _ a b n st .. => [(a, n), (b, n), (st, 8)]
  | .preempt _ l .. => of l
  | _ => []

/-- An item in flight, or withdrawn, has an access to the frame from a key to make. -/
def State.frameBusy (s : State) (key : Nat) : Bool :=
  let uses (w : Work) : Bool := w.spans.any (fun p => decide (p.1 < key + 4096) && decide (key < p.1 + p.2))
  s.work.any uses || s.cores.any (fun c => c.2.threads.toList.any (fun t => t.withdrawn.any uses))

/-- Free frames of a stack. -/
def State.freeIn (s : State) (st : Nat) : Nat :=
  s.populatedFrom st (sget s.frameNext st 0) + (s.freeFrames.filter (fun k => stackOf k == st)).length

/-- The key of frame i of a stack. -/
def frameKey (st i : Nat) : Nat := st / 4 * 2 ^ 56 + st % 4 * 2 ^ 36 + 2 ^ 35 + i * 4096

/-- Draws one frame of a stack: a returned one that no item in flight reaches any more, or one never drawn; of any three of those in a
row one is populated, or none of the stack is (R15, R301). -/
def State.drawFrame (s : State) (st : Nat) : Option (Nat × State) :=
  match s.freeFrames.find? (fun k => stackOf k == st && !s.frameBusy k) with
  | some k => some (k, { s with freeFrames := s.freeFrames.erase k })
  | none =>
    let i := sget s.frameNext st 0
    match ((List.range 3).map (i + ·)).find? (fun j => decide (j < stackFrames) && !s.unpopulated (frameKey st j)) with
    | some j => some (frameKey st j, { s with frameNext := sset s.frameNext st (j + 1) })
    | none => none

/-- Draws a frame of each stack named, all or none. -/
def State.drawFrames (s : State) : List Nat → Option (List Nat × State)
  | [] => some ([], s)
  | st :: r =>
    match s.drawFrame st with
    | none => none
    | some (k, s) =>
      match s.drawFrames r with
      | none => none
      | some (l, s) => some (k :: l, s)

/-- The pools of the stacks named hold a frame for each, those that items in flight still reach among them. -/
def State.hasFrames (s : State) (l : List Nat) : Bool := l.eraseDups.all (fun st => decide ((l.filter (· == st)).length ≤ s.freeIn st))

/-- Returns frames of a partition's tensor to their pools: those drawn from cr.rquota count there again (R67). FRAMES wraps modulo 2^32,
where a write of the register leaves no room for the sum (log 70). -/
def State.returnFrames (s : State) (owner : Nat) (frames : List Nat) (quota : Nat) : State :=
  let p := s.partition owner
  { s.setPartition owner { p with rquota := p.rquota + BitVec.ofNat 32 quota } with freeFrames := s.freeFrames ++ frames }

/-- The die with more free frames, the issuing one when both have the same number; or, with LOCAL, the issuing die
(R65). -/
def State.chooseDie (s : State) (hints issuing : Nat) : Nat :=
  let free (d : Nat) : Nat := ((List.range 4).map (fun i => s.freeIn (d * 4 + i))).foldl (· + ·) 0
  if hints.testBit 0 then issuing
  else if free issuing < free (1 - issuing) then 1 - issuing else issuing

/-- The stack of a die with the most free frames, the lowest on a tie (R65). -/
def State.chooseStack (s : State) (die : Nat) : Nat :=
  (List.range 4).foldl (fun b i => if s.freeIn (die * 4 + b) < s.freeIn (die * 4 + i) then i else b) 0

/-! ## Handles -/

/-- The live tensor of a handle; a freed one still holds its frames until its commands end (R52, R71). No two partitions have a handle in
common (log 72). -/
def State.tensor (s : State) (h : Nat) : Option Tensor := s.tensors.find? (fun t => t.handle == h)

/-- The handle may be named by a command: it is live and no `t.free` has taken its position (R52, R71). -/
def State.liveHandle (s : State) (core h : Nat) : Bool := (s.tensor h).any (fun t => !t.freed && t.owner == s.partOf core)

/-- Replaces a tensor. -/
def State.setTensor (s : State) (t : Tensor) : State :=
  { s with tensors := s.tensors.map (fun x => if x.handle = t.handle then t else x) }

/-- Changes the tensor of a handle, if there is one. -/
def State.onTensor (s : State) (h : Nat) (f : Tensor → Tensor) : State :=
  match s.tensor h with
  | some t => s.setTensor (f t)
  | none => s

/-- ORs flags into a tensor's sticky flag word. -/
def State.stick (s : State) (h : Nat) (g : FFlags) : State := s.onTensor h (fun t => { t with sticky := t.sticky ||| g })

/-- What a frame held is gone: its bytes are zero, and no cached byte of its earlier tensor reaches it (R15). -/
def State.wipeFrame (s : State) (key : Nat) : State :=
  let k := s.fwd key
  let inside (w : Nat) : Bool := decide (k ≤ 8 * w) && decide (8 * w < k + 4096)
  let mine (x : Nat) : Bool := decide (key ≤ x) && decide (x < key + 4096)
  let s := { s with mem := s.mem.filter (fun c => !(decide (k ≤ c.1) && decide (c.1 < k + 4096))),
                    bad := s.bad.filter (fun w => !inside w), soft := s.soft.filter (fun w => !inside w) }
  s.clusters.foldl (fun s c => (c.2.sectors.filter (fun x => mine x.key)).foldl (fun s x => s.emptySector c.1 x.key) s) s

/-- A range of n bytes from a virtual base holds no byte of a RAW tensor and ends within 2^56. -/
def State.baseFree (s : State) (n base : Nat) : Bool :=
  decide (base + n ≤ 2 ^ 56) &&
  s.tensors.all (fun t => t.rawPte == 0 || decide (t.rawBase + 4096 * t.frames.length ≤ base) || decide (base + n ≤ t.rawBase))

/-- The base of a new RAW tensor of n bytes, which R61 leaves open: a free value where it is free, else the least place after
another tensor (log 6). -/
def State.rawBaseFor (s : State) (n : Nat) : Nat × State :=
  let (b, s) := s.draw
  ((((b % 2 ^ 44 * 4096) :: 4096 :: s.tensors.map (fun t => t.rawBase + 4096 * t.frames.length)).find? (s.baseFree n)).getD 4096, s)

/-- A new tensor from a descriptor at its first position: its handle, or 0 where a pool lacks frames (R65-R67,
R80); none while items in flight still reach frames that it would draw (R15). A freed handle is not used again before 2^24 further
`t.new` have been performed (R16, R52). DESIGN CHOICE (log 83): a RAW tensor's pages are readable and writable by users, not
executable, and of memory type WB; every block of a block-scaled tensor begins with scale code 0x00. -/
def State.newTensor (s : State) (core : Nat) (asid : Nat) (d : TensorDesc) : Option (Nat × State) :=
  let owner := s.partOf core
  let p := s.partition owner
  let dead := p.freedHandles.filter (fun h => decide (p.newCount < h.2 + 2 ^ 24))
  let p := { p with newCount := p.newCount + 1 }
  let rep := chooser d.ops d.fmt
  let issuing := dieOf core
  let home := if rep.replicated ∨ rep.placement = .sliced then issuing else s.chooseDie d.hints issuing
  let stack := s.chooseStack home
  let one := copyStacks rep d home stack
  let two := if rep.replicated then copyStacks rep d (1 - home) 0 else []
  if 8 * stackFrames < layoutFrames rep.layout d.fmt d.count ∨ p.rquota.toNat < two.length ∨ !s.hasFrames (one ++ two) then
    some (0, s.setPartition owner p)
  else
    match s.drawFrames (one ++ two) with
    | none => none
    | some (frames, s') =>
      let (h, s') := s'.freshName (s.tensors.map (·.handle) ++ dead.map (·.1)) (2 ^ 64)
      let raw := d.ops.testBit 9
      let (base, s') := if raw then s'.rawBaseFor (4096 * frames.length) else (0, s')
      let t : Tensor := ⟨h, owner, d, d.ops, rep, rep, home, frames, two.length, base, if raw then 0x37 else 0,
        asid, [], [], 0, false⟩
      let s' := frames.foldl State.wipeFrame s'
      some (h, { s'.setPartition owner { p with rquota := p.rquota - BitVec.ofNat 32 two.length, freedHandles := dead } with
        tensors := t :: s'.tensors })

/-! ## Elements (R61, R64, R154) -/

/-- The key of a byte of a tensor's linear layout. -/
def Tensor.byteKey (t : Tensor) (i : Nat) : Nat := (t.frames[i / 4096]?).getD 0 + i % 4096

/-- Bit offset of element i's code in the linear layout, and of its block's scale byte. -/
def linearBit (fmt i : Nat) : Nat × Nat :=
  let w := widthOf fmt
  match familyOf fmt with
  | none => (i * w, 0)
  | some f =>
    let b := i / f.len * (1 + f.len * w / 8) * 8
    (b + 8 + i % f.len * w, b)

/-- Bit offset of element i's code, and of its block's scale byte, in a layout of codes one after another: LIN, TILED64 and BLOCKED
(R61, R64, R154). -/
def layoutBit (l : Layout) (fmt i : Nat) : Nat × Nat :=
  let w := widthOf fmt
  let len := blockLen fmt
  match l with
  | .tiled64 => (i / 64 * (8 * roundUp (8 * w) 64) + i % 64 * w, 0)
  | .blocked => (i / len * (8 * (1 + len)) + 8 + i % len * 8, i / len * (8 * (1 + len)))
  | _ => linearBit fmt i

/-- The bytes of a layout that hold element i, its block's scale or plane header among them, as offsets and lengths (R64, R160). -/
def layoutPlaces (l : Layout) (fmt i : Nat) : List (Nat × Nat) :=
  match l with
  | .plane =>
    let len := blockLen fmt
    let n := (naturalPlanes (elemCode fmt)).getD 0
    let base := i / len * roundUp (planeBytes len n) 8
    (base, 8) :: (List.range n).map (fun j => (base + 8 + j * (len / 8) + i % len / 8, 1))
  | l =>
    let (b, sb) := layoutBit l fmt i
    (b / 8, ceilDiv (b % 8 + widthOf fmt) 8) :: (if (familyOf fmt).isSome then [(sb / 8, 1)] else [])

/-- Where the part of a copy that holds element i begins among the copy's bytes, and the element's number in it (R64). -/
def Tensor.part (t : Tensor) (i : Nat) : Nat × Nat :=
  if t.rep.placement = .sliced ∧ t.desc.lower ≤ i then (4096 * layoutFrames t.rep.layout t.desc.fmt t.desc.lower, i - t.desc.lower)
  else (0, i)

/-- The 8-byte words of a copy, by number, that hold elements of a tensor, each once. -/
def Tensor.elemWords (t : Tensor) (idx : List Nat) : List Nat :=
  (idx.flatMap (fun i => (layoutPlaces t.rep.layout t.desc.fmt (t.part i).2).flatMap (fun p => wordsOf ((t.part i).1 + p.1) p.2))).eraseDups

/-- The key / 8 of a word of a tensor's first copy, the one that is read (log 82), where it is held now. -/
def State.tensorWord (s : State) (t : Tensor) (o : Nat) : Nat := s.fwd (t.byteKey (8 * o)) / 8

/-- The key / 8 of a word of each copy of a tensor, where it is held now. -/
def State.copyWords (s : State) (t : Tensor) (o : Nat) : List Nat :=
  s.tensorWord t o :: (if t.rep.replicated then [s.tensorWord t (o + 512 * (t.frames.length / 2))] else [])

/-- n bits from a bit offset of a copy as its words deliver them: zero in one that holds an uncorrectable error (R122). -/
def State.keptBits (s : State) (t : Tensor) (bit n x : Nat) : Nat :=
  packCodes 1 ((List.range n).map (fun k => if s.bad.contains (s.tensorWord t ((bit + k) / 64)) then 0 else x / 2 ^ k % 2))

/-- An element's code and scale code, of a tensor that is no RAW one, as the words of its representation deliver them (R122). In PLANE
an element with an uncorrectable word is +0 (log 82). -/
def State.delivered (s : State) (t : Tensor) (i : Nat) (c : Nat × Nat) : Nat × Nat :=
  if s.bad.isEmpty then c
  else
    let (base, j) := t.part i
    match t.rep.layout with
    | .plane =>
      let lost (l : List (Nat × Nat)) : Bool := l.any (fun p => (wordsOf (base + p.1) p.2).any (fun o => s.bad.contains (s.tensorWord t o)))
      let places := layoutPlaces .plane t.desc.fmt j
      (if lost places then 0 else c.1, if lost (places.take 1) then 0 else c.2)
    | l =>
      let (b, sb) := layoutBit l t.desc.fmt j
      (s.keptBits t (8 * base + b) (widthOf t.desc.fmt) c.1,
        if (familyOf t.desc.fmt).isSome then s.keptBits t (8 * base + sb) 8 c.2 else c.2)

/-- n bits of a RAW tensor's bytes. -/
def State.rawBits (s : State) (t : Tensor) (bit n : Nat) : Nat :=
  let l := (List.range (ceilDiv (bit % 8 + n) 8)).map (fun j => s.readNat (t.byteKey (bit / 8 + j)) 1)
  packCodes 8 l / 2 ^ (bit % 8) % 2 ^ n

/-- Writes n bits of a RAW tensor's bytes. -/
def State.setRawBits (s : State) (t : Tensor) (bit n x : Nat) : State :=
  let d := x % 2 ^ n * 2 ^ (bit % 8)
  let m := (2 ^ n - 1) * 2 ^ (bit % 8)
  (List.range (ceilDiv (bit % 8 + n) 8)).foldl (fun s j =>
    s.writeHome (t.byteKey (bit / 8 + j)) 1 (d / 2 ^ (8 * j) % 256) (m / 2 ^ (8 * j) % 256)) s

/-- Element i's code and its block's scale code, 0 without scales, as a read delivers them (R122). -/
def State.elem (s : State) (t : Tensor) (i : Nat) : Nat × Nat :=
  let fam := familyOf t.desc.fmt
  if t.rawPte = 0 then
    s.delivered t i (sget t.elems i 0, match fam with | some f => sget t.scales (i / f.len) 0 | none => 0)
  else
    let (b, sb) := linearBit t.desc.fmt i
    (s.rawBits t b (widthOf t.desc.fmt), if fam.isSome then s.rawBits t sb 8 else 0)

/-- The value of a code and scale code in a tensor's format. -/
def elemVal (fmt : Nat) (c : Nat × Nat) : Val :=
  match familyOf fmt with
  | some f => blockVal f.elem f.scale c.2 c.1
  | none => decode ((fmtOf fmt).getD fp32) c.1

/-- Element i as a value. -/
def State.elemV (s : State) (t : Tensor) (i : Nat) : Val := elemVal t.desc.fmt (s.elem t i)

/-- Writes the code of element i. -/
def State.setCode (s : State) (h i c : Nat) : State :=
  match s.tensor h with
  | none => s
  | some t =>
    if t.rawPte = 0 then s.setTensor { t with elems := if c = 0 then t.elems.filter (·.1 != i) else sset t.elems i c }
    else s.setRawBits t (linearBit t.desc.fmt i).1 (widthOf t.desc.fmt) c

/-- Writes the scale code of block b. -/
def State.setScale (s : State) (h b c : Nat) : State :=
  match s.tensor h with
  | none => s
  | some t =>
    if t.rawPte = 0 then s.setTensor { t with scales := if c = 0 then t.scales.filter (·.1 != b) else sset t.scales b c }
    else
      match familyOf t.desc.fmt with
      | some f => s.setRawBits t (linearBit t.desc.fmt (b * f.len)).2 8 c
      | none => s

/-- A command has written elements: a word all of whose elements it has written holds no error any more, in either copy (R121,
R122). -/
def State.mend (s : State) (h : Nat) (idx : List Nat) : State :=
  if s.bad.isEmpty && s.soft.isEmpty then s
  else
    match s.tensor h with
    | none => s
    | some t =>
      let whole (o : Nat) : Bool := (List.range t.desc.count).all (fun i => idx.contains i || !(t.elemWords [i]).contains o)
      let clean := ((t.elemWords idx).filter whole).flatMap (s.copyWords t)
      { s with bad := s.bad.filter (fun w => !clean.contains w), soft := s.soft.filter (fun w => !clean.contains w) }

/-- The elements of block b of a tensor. -/
def TensorDesc.block (d : TensorDesc) (len b : Nat) : List Nat := ((List.range len).map (b * len + ·)).filter (fun i => decide (i < d.count))

/-- The latest write of each index in a list, in order of first appearance (R59). -/
def lastWrites {α : Type} (xs : List (Nat × α)) : List (Nat × α) := xs.foldl (fun l x => sset l x.1 x.2) []

/-- Encodes a whole block of a tensor from its values, the new ones merged with those it holds; the codes past the last element
are +0 (R89, R154, R158). -/
def State.putBlock (s : State) (h b : Nat) (f : Family) (xs : List (Nat × Val)) (sat : Bool) : FFlags × State :=
  match s.tensor h with
  | none => (0, s)
  | some t =>
    let old (i : Nat) : Val := if i < t.desc.count then s.elemV t i else .fin false 0 0 false
    let vs := (List.range f.len).map (fun j => sget xs (b * f.len + j) (old (b * f.len + j)))
    let (sc, cs, g) := encodeBlock f.elem f.scale .rne sat [] vs
    (g, cs.zipIdx.foldl (fun s c => s.setCode h (b * f.len + c.2) c.1) (s.setScale h b sc))

/-- Writes values to elements in order, each rounded by RoundRNE, or whole blocks encoded (R79, R89). A block takes the last
value of each of its elements; an overwritten one raises the flags of the block that would hold it (log 12). -/
def State.putVals (s : State) (h : Nat) (xs : List (Nat × Val)) : FFlags × State :=
  match s.tensor h with
  | none => (0, s)
  | some t =>
    match familyOf t.desc.fmt with
    | none =>
      let f := (fmtOf t.desc.fmt).getD fp32
      let (g, s) := xs.foldl (fun acc x =>
        let (c, g) := round f .rne false 0 x.2
        (acc.1 ||| g, acc.2.setCode h x.1 c)) (0, s)
      (g, s.mend h (xs.map (·.1)))
    | some f =>
      let last := lastWrites xs
      let more := if last.length = xs.length then 0 else
        (xs.map (fun x => (s.putBlock h (x.1 / f.len) f (sset last x.1 x.2) false).1)).foldl (· ||| ·) 0
      let blocks := (last.map (fun x => x.1 / f.len)).eraseDups
      let (g, s) := blocks.foldl (fun acc b =>
        let (g, s) := acc.2.putBlock h b f last false
        (acc.1 ||| g, s)) (more, s)
      (g, s.mend h (blocks.flatMap (t.desc.block f.len)))

/-- Writes codes with their scale codes to elements in order. A block whose elements all come under one scale takes
it; one whose scale is not touched keeps it; any other is encoded anew from its values (log 12). -/
def State.putCodes (s : State) (h : Nat) (xs : List (Nat × Nat × Nat)) : FFlags × State :=
  match s.tensor h with
  | none => (0, s)
  | some t =>
    let xs := lastWrites xs
    match familyOf t.desc.fmt with
    | none => (0, (xs.foldl (fun s x => s.setCode h x.1 x.2.1) s).mend h (xs.map (·.1)))
    | some f =>
      let (g, idx, s) := ((xs.map (fun x => x.1 / f.len)).eraseDups).foldl (fun acc b =>
        let mine := xs.filter (fun x => x.1 / f.len == b)
        let sc := (mine.map (·.2.2)).headD 0
        let one := mine.all (fun x => x.2.2 == sc)
        let whole := decide (min f.len (t.desc.count - b * f.len) ≤ mine.length)
        let old := (acc.2.2.elem t (b * f.len)).2
        if one && (whole || sc == old) then
          (acc.1, acc.2.1 ++ mine.map (·.1), mine.foldl (fun s x => s.setCode h x.1 x.2.1) (acc.2.2.setScale h b sc))
        else
          let (g, s) := acc.2.2.putBlock h b f (mine.map (fun x => (x.1, elemVal t.desc.fmt x.2))) false
          (acc.1 ||| g, acc.2.1 ++ t.desc.block f.len b, s)) ((0 : FFlags), ([] : List Nat), s)
      (g, s.mend h idx)

/-! ## Views (R55-R58) -/

/-- Positions on each axis. -/
def View.extents (v : View) : List Nat := (v.padlo.zip (v.n.zip v.padhi)).map (fun p => p.1 + p.2.1 + p.2.2)

/-- Positions in all, padding included. -/
def View.positions (v : View) : Nat := v.extents.foldl (· * ·) 1

/-- The digits of a number in a mixed radix, last axis fastest (R56, R61). -/
def digits (x : Nat) : List Nat → List Nat
  | [] => []
  | _ :: r => let m := r.foldl (· * ·) 1; x / m :: digits (x % m) r

/-- The linear index of coordinates (R61). -/
def linearOf (dims : List Nat) (c : List Nat) : Nat := (dims.zip c).foldl (fun a p => a * p.1 + p.2) 0

/-- Position `seq` on each axis: the index i, from -PADLO (R56). -/
def View.index (v : View) (seq : Nat) : List Int := (v.padlo.zip (digits seq v.extents)).map (fun p => (p.2 : Int) - p.1)

/-- x clamped to 0 and hi. -/
def clampI (x hi : Int) : Int := min (max x 0) hi

/-- A view with its axes zipped: origin, count, stride and extent. -/
def View.axes (v : View) (dims : List Nat) : List (Int × Nat × Int × Nat) := v.origin.zip (v.n.zip (v.stride.zip dims))

/-- The element a read of a position takes, none for a CONST fill (R57). -/
def View.reads (v : View) (dims : List Nat) (seq : Nat) : Option Nat :=
  let i := v.index seq
  let a := v.axes dims
  if v.const && (i.zip a).any (fun p => decide (p.1 < 0) || decide ((p.2.2.1 : Int) ≤ p.1)) then none
  else some (linearOf dims ((i.zip a).map (fun p =>
    (clampI (p.2.1 + clampI p.1 ((p.2.2.1 : Int) - 1) * p.2.2.2.1) ((p.2.2.2.2 : Int) - 1)).toNat)))

/-- What a write of a position does (R58). -/
inductive Fate where
  | padding | dropped
  | stored (i : Nat)
deriving DecidableEq, Repr

/-- The fate of a position written (R58). -/
def View.writes (v : View) (dims : List Nat) (seq : Nat) : Fate :=
  let i := v.index seq
  let a := v.axes dims
  if (i.zip a).any (fun p => decide (p.1 < 0) || decide ((p.2.2.1 : Int) ≤ p.1)) then .padding
  else
    let c := (i.zip a).map (fun p => (p.2.1 + p.1 * p.2.2.2.1, p.2.2.2.2))
    if c.any (fun p => decide (p.1 < 0) || decide ((p.2 : Int) ≤ p.1)) then .dropped
    else .stored (linearOf dims (c.map (fun p => p.1.toNat)))

/-- The operation bit a last-axis stride needs (R82). -/
def View.transposeBit (v : View) : Nat :=
  let st := v.stride.getLastD 1
  if st = 0 ∨ st = 1 then 0 else 0x100

/-- The fields of a view descriptor read as a 64-byte number that break no limit by themselves, for a tensor of the
given rank and format (R55). -/
def viewOf (x rank fmt : Nat) : Option View :=
  let axis (k : Nat) := k < rank
  let org (k : Nat) := byteField x (19 + 4 * k) (16 + 4 * k)
  let nm1 (k : Nat) := byteField x (37 + 2 * k) (36 + 2 * k)
  let str (k : Nat) := byteField x (47 + 2 * k) (46 + 2 * k)
  let pad (k : Nat) := byteField x (56 + k) (56 + k)
  let ks := (List.range 5).filter axis
  let v : View := ⟨byteField x 7 0, byteField x 9 9 % 2 == 1, byteField x 15 12, ks.map (fun k => sext (org k) 32),
    ks.map (fun k => nm1 k + 1), ks.map (fun k => sext (str k) 16), ks.map (fun k => pad k % 16), ks.map (fun k => pad k / 16)⟩
  if byteField x 8 8 == rank && byteField x 9 9 / 2 == 0 && byteField x 11 10 == 0 && byteField x 63 61 == 0 &&
      decide (v.fillc < 2 ^ widthOf fmt) && decide (v.positions ≤ 2 ^ 32) &&
      (List.range 5).all (fun k => axis k || (org k == 0 && nm1 k == 0 && str k == 0 && pad k == 0))
  then some v else none

/-- A tensor descriptor read as a 64-byte number from an address, if it passes R53. -/
def descOf (x : Nat) (addr : Word) : Option TensorDesc :=
  let rank := byteField x 0 0
  let fmt := byteField x 1 1
  let ops := byteField x 3 2
  let hints := byteField x 7 4
  let ext := (List.range 5).map (fun k => byteField x (15 + 8 * k) (8 + 8 * k))
  let dims := ext.take rank
  if decide (1 ≤ rank ∧ rank ≤ 5) && (fmtOf (elemCode fmt)).isSome && decide (ops < 2 ^ 13) && decide (hints < 4) &&
      byteField x 63 48 == 0 && dims.all (fun e => decide (1 ≤ e ∧ e < 2 ^ 31)) && (ext.drop rank).all (· == 0) &&
      decide (dims.foldl (· * ·) 1 ≤ 2 ^ 40)
  then some ⟨fmt, ops, hints, dims, addr⟩ else none

/-! ## What a command names and touches -/

/-- The handles of a command, the command's own first (R12, R16, R90). -/
def HandleCmd.handles : HandleCmd → List Nat
  | .new _ => []
  | .free h => [h]
  | .ld v _ => [v.handle]
  | .st v .. => [v.handle]
  | .gat h .. => [h]
  | .phr h p .. => h :: ((if 2 ≤ p.nh then [p.h1] else []) ++ (if p.nh = 3 then [p.h2] else []))
  | .q h .. => [h]
  | .widen h .. => [h]
  | .cpT a b _ => [a.handle, b.handle]
  | .upOpen d => [d.handle]
  | .operand a b .. => (match a with | some v => [v.handle] | none => []) ++ (match b with | some v => [v.handle] | none => [])

/-- Elements a view reads. -/
def State.readsOf (s : State) (v : View) : List Nat :=
  match s.tensor v.handle with
  | some t => (List.range v.positions).filterMap (v.reads t.desc.dims)
  | none => []

/-- Elements a view stores to. -/
def State.writesOf (s : State) (v : View) : List Nat :=
  match s.tensor v.handle with
  | some t => (List.range v.positions).filterMap (fun n => match v.writes t.desc.dims n with | .stored i => some i | _ => none)
  | none => []

/-- The linear indices a command reads or writes, handle by handle. -/
def State.elements (s : State) : HandleCmd → List (Nat × List Nat)
  | .new _ | .free _ | .q .. | .widen .. | .upOpen _ => []
  | .ld v _ => [(v.handle, s.readsOf v)]
  | .st v .. => [(v.handle, s.writesOf v)]
  | .gat h idx _ => [(h, match s.tensor h with | some t => idx.map (fun i => min i (t.desc.count - 1)) | none => [])]
  | .phr h p a n => ((HandleCmd.phr h p a n).handles).map (fun x => (x, (List.range n).map (a + ·)))
  | .cpT a b _ => [(a.handle, s.readsOf a), (b.handle, s.writesOf b)]
  | .operand a b .. =>
    (match a with | some v => [(v.handle, s.readsOf v)] | none => []) ++
    (match b with | some v => [(v.handle, s.readsOf v)] | none => [])

end Sys2Proof.Machine
end

