-- ==== Sys2Proof/Machine/Region.lean ====
section
/-! DEFINITION. Update regions: shares, applications, and what a direct access to their bytes meets (16 R226-R228,
17 R232-R245). -/

set_option Elab.async false

namespace Sys2Proof.Machine

open Sys2Proof

/-! ## Regions -/

/-- The open region of a stream identifier. -/
def State.region (s : State) (sid : Nat) : Option Region := s.regions.find? (fun r => r.sid == sid)

/-- A region that is open in a core's partition (R235). -/
def State.regionFor (s : State) (core sid : Nat) : Option Region :=
  (s.region sid).filter (fun r => (s.tensor r.desc.handle).all (fun t => t.owner == s.partOf core))

/-- Replaces a region. -/
def State.setRegion (s : State) (r : Region) : State :=
  { s with regions := s.regions.map (fun x => if x.sid = r.sid then r else x) }

/-- The share of a region at a channel. -/
def Region.share (r : Region) (chan : Nat) : Option Share := r.shares.find? (fun x => x.chan == chan)

/-- Replaces a share. -/
def Region.setShare (r : Region) (x : Share) : Region :=
  { r with shares := r.shares.map (fun y => if y.chan = x.chan then x else y) }

/-- The channel that homes an element of a tensor that declares UPDATE (R233). -/
def Tensor.channel (t : Tensor) (i : Nat) : Nat := channelOf (t.byteKey (i * (widthOf t.desc.fmt / 8)))

/-- The key of record i of a region's spill area (R232, R233). -/
def Region.recordKey (r : Region) (i : Nat) : Nat := (r.desc.spill[i / 4]?).getD 0 + i % 4 * 16

/-- The 16 bytes of a spill record (R238). -/
def recordBytes (r : Region) (elem : Nat) (val : Lane) (src seq : Nat) : Nat :=
  val.toNat + (elem - r.desc.first) % 2 ^ 32 * 2 ^ 32 + seq % 2 ^ 32 * 2 ^ 64 + (2 ^ 31 + src % 2 ^ 11) * 2 ^ 96

/-- The keys of a share's written records, in log order (R238). -/
def Region.logKeys (r : Region) (x : Share) : List Nat := (List.range x.log).map (fun i => r.recordKey (x.recFirst + i))

/-- The pairs of a share's spill records as memory holds them, each with its value: a record with VALID = 0 holds none, nor does
one whose index lies outside the region (R234, R238). -/
def State.logged (s : State) (r : Region) (x : Share) : List (BinEntry × Val) :=
  ((r.logKeys x).filter (fun k => !s.badAt k 16)).filterMap (fun k =>
    let y := s.readNat k 16
    if y.testBit 127 && decide (bits y 63 32 < r.desc.count) then
      some (⟨r.desc.first + bits y 63 32, BitVec.ofNat 32 y, bits y 106 96, bits y 95 64, 1, false, false⟩, f32 (BitVec.ofNat 32 y))
    else none)

/-- The pairs of a share's bin with their values: FP32 in an ordered region, else in the region's element format (R237). -/
def Share.binned (x : Share) (ordered : Bool) (f : Fmt) : List (BinEntry × Val) :=
  x.bins.map (fun e => (e, if ordered then f32 e.val else decode f e.val.toNat))

/-- Pairs are pending at a share. -/
def Share.pending (x : Share) : Bool := !x.bins.isEmpty || x.log != 0

/-- Some pending pair is not known to be uncorrectable. -/
def State.applies (s : State) (r : Region) (x : Share) : Bool := x.bins.any (fun e => !e.bad) || !(s.logged r x).isEmpty

/-- A trigger begins an application of every pair accepted at the channel so far (R239); it counts from here when it
applies a pair (R227, log 13). -/
def State.startApply (s : State) (r : Region) (x : Share) (next : RegionState) (flushing : List Nat) (full : Bool) : State :=
  let n := x.applications + (if x.pending && s.applies r x then 1 else 0)
  s.setRegion (r.setShare { x with state := next, flushing := flushing, full := full, applications := n })

/-- Sort order of an ordered region: source, then emission sequence (R227). -/
def entryLe (a b : BinEntry) : Bool := decide (a.src < b.src) || (a.src == b.src && decide (a.seq ≤ b.seq))

/-- Inserts an entry in order. -/
def insertEntry (e : BinEntry × Val) : List (BinEntry × Val) → List (BinEntry × Val)
  | [] => [e]
  | x :: r => if entryLe e.1 x.1 then e :: x :: r else x :: insertEntry e r

/-- Entries in the order they are folded: sorted, or the bin entry first and then the records in log order (R227). -/
def foldOrder (ordered : Bool) (l : List (BinEntry × Val)) : List (BinEntry × Val) :=
  if ordered then l.foldl (fun acc e => insertEntry e acc) [] else l

/-- Folds the entries of one element and combines the result into it (R227). -/
def State.applyElem (s : State) (r : Region) (f : Fmt) (t : Tensor) (elem : Nat) (es : List (BinEntry × Val)) : State :=
  match foldOrder r.desc.ordered es with
  | [] => s
  | e :: rest =>
    let (b, g) := rest.foldl (fun acc e =>
      let (c, h) := r.desc.phrase.combine f acc.1 e.2
      (decode f c, acc.2 ||| h)) (e.2, (0 : FFlags))
    let (c, h) := r.desc.phrase.combine f (decode f (s.elem t elem).1) b
    (s.setCode t.handle elem c).stick t.handle (g ||| h)

/-- The pairs that uncorrectable entries and records of a share held (R244). -/
def State.lostPairs (s : State) (r : Region) (x : Share) : Nat :=
  ((x.bins.filter (·.bad)).map (fun e => if e.badCount then 1 else e.pairs)).foldl (· + ·) 0 +
    ((r.logKeys x).filter (fun k => s.badAt k 16)).length

/-- The application of a share: every element with pairs, then the records are written back as zero (R227, R238). -/
def State.applyShare (s : State) (r : Region) (x : Share) : State :=
  match s.tensor r.desc.handle with
  | none => s
  | some t =>
    let f := (fmtOf t.desc.fmt).getD fp32
    let all := (x.binned r.desc.ordered f).filter (fun e => !e.1.bad) ++ s.logged r x
    let s := ((all.map (fun e => e.1.elem)).eraseDups).foldl (fun s i => s.applyElem r f t i (all.filter (fun e => e.1.elem == i))) s
    (r.logKeys x).foldl (fun s k => s.writeBytes k 16 0 (bytesMask 16)) s

/-- The last of the numbers that follow on from n without a gap, among those listed. -/
def contiguous (l : List Nat) (n : Nat) : Nat → Nat
  | 0 => n
  | k + 1 => if l.contains (n + 1) then contiguous l (n + 1) k else n

/-- Flushes have completed at the channel (R241). -/
def Share.flushesDone (x : Share) (ns : List Nat) : Share :=
  let l := x.early ++ ns
  let n := contiguous l x.flushed l.length
  { x with flushed := n, early := l.filter (fun k => decide (n < k)) }

/-- A timeline's engine ends with its counter at a value: the waits that it has reached are answered. -/
def State.wakeTimeline (s : State) (kind id value : Nat) : State :=
  let wake (t : Thread) : Thread :=
    match t.pend with
    | .wait 77 [k, i, n] => if k = kind ∧ i = id ∧ n ≤ value then { t with pend := .elapsed } else t
    | _ => t
  { s with cores := s.cores.map (fun (c : Nat × Core) => (c.1, { c.2 with threads := c.2.threads.map wake })) }

/-- An application in progress at a share ends: it frees what it applied, and the share opens again or closes; the region ends
with its last share (R239, R241, R242). -/
def State.endApply (s : State) (r : Region) (x : Share) : State :=
  let lost := s.lostPairs r x
  let s := s.applyShare r x
  let next : RegionState := if x.state = .closing then .closed else .opened
  let done := { x with state := next, bins := [], log := 0, lost := x.lost + lost, flushing := [], full := false }
  let r := r.setShare (done.flushesDone x.flushing)
  let s := s.setRegion r
  let s := if next = .closed then
      { s with work := s.work.filter (fun w => match w.body with | .close i c => !(i == r.sid && c == x.chan) | _ => true) }
    else s
  if r.shares.all (fun x => x.state == .closed) then
    let s := s.wakeTimeline 2 r.sid ((r.shares.map (·.flushed)).foldl min r.flushes)
    { s with regions := s.regions.filter (fun y => y.sid != r.sid) }
  else s

/-! ## Accesses to bytes of a region (R228, R239, R240) -/

/-- Some of the n bytes from a key are bytes of a region's share: of its tensor's range, at that channel. -/
def State.regionBytes (s : State) (key n : Nat) (r : Region) (x : Share) : Bool :=
  match s.tensor r.desc.handle with
  | some t =>
    let w := widthOf t.desc.fmt / 8
    t.frames.zipIdx.any (fun fi =>
      decide (fi.1 < key + n) && decide (key < fi.1 + 4096) && (List.range 16).any (fun b =>
        let lo := max key (fi.1 + 256 * b)
        let hi := min (key + n) (fi.1 + 256 * b + 256)
        decide (lo < hi) && channelOf (fi.1 + 256 * b) == x.chan &&
        decide (r.desc.first * w < hi - fi.1 + 4096 * fi.2) &&
        decide (lo - fi.1 + 4096 * fi.2 < (r.desc.first + r.desc.count) * w)))
  | none => false

/-- The bytes of global memory that an item reads or writes next, as keys and lengths. -/
def Work.globals (w : Work) : List (Nat × Nat) :=
  let of (l : List Access) : List (Nat × Nat) := (l.filter (fun a => a.via != .scratch)).map (fun a => (a.key, a.n))
  match w.body with
  | .load (a :: _) .. => of [a]
  | .store a .. => of [a]
  | .amo _ a .. => of [a]
  | .fut _ a _ _ r => of [a] ++ (match r with | some b => of [{ b with key := b.key + 56, n := 8 }] | none => [])
  | .resolve a .. => of [a]
  | .writeBack _ k .. => [(k, 64)]
  | .mx _ _ (.mma _ a b _ _) =>
    (match a with | .memory l => of l | .view _ => []) ++ (match b with | .memory l => of l | .view _ => [])
  | .copy j =>
    (match j.phase, j.granules with
      | 0, g :: _ => ((g.src ++ g.dst).filter (fun p => p.2.2 != .scratch)).map (fun p => (p.1, p.2.1))
      | 0, [] => []
      | _, _ => match j.target with | some a => of [a] | none => [])
  | .phRun r => of (r.dst ++ r.src1 ++ r.src2)
  | .migrate _ a b n .. => [(a, n), (b, n)]
  | .preempt _ l .. => of l
  | _ => []

/-- A direct access of the item meets a share: its elements, for a handle command, or its bytes. -/
def State.meets (s : State) (w : Work) (r : Region) (x : Share) : Bool :=
  match w.body with
  | .pair sid c .. | .flush sid c .. => sid == r.sid && c == x.chan
  | .close sid c => sid == r.sid && c == x.chan && x.state != .closing
  | .handle cmd _ =>
    (s.elements cmd).any (fun p => p.1 == r.desc.handle && (match s.tensor p.1 with
      | some t => p.2.any (fun i => decide (r.desc.first ≤ i) && decide (i < r.desc.first + r.desc.count) && t.channel i == x.chan)
      | none => false))
  | _ => w.globals.any (fun p => s.regionBytes p.1 p.2 r x)

/-- The moment at which the item reached a channel and was held there. -/
def Work.heldSince (w : Work) : Option Nat := match w.body with | .handle _ asked => asked | _ => w.arrived

/-- Another item is held at a share and arrived there first: what a channel holds it takes in arrival order (R239). -/
def State.ahead (s : State) (w : Work) (r : Region) (x : Share) : Bool :=
  s.work.any (fun y => y.id != w.id && s.meets y r x &&
    (match y.heldSince, w.heldSince with | some a, some b => decide (a < b) | some _, none => true | none, _ => false))

/-- An item that reaches a share, or has been held there, starts an application: a pair that was accepted before it arrived is
pending (R228, R239). -/
def Work.triggers (w : Work) (x : Share) : Bool :=
  x.pending && (match w.heldSince with | none => true | some t => decide (x.since < t))

/-- What a direct access to bytes of open regions meets at its home: whether it may be performed now, and the state
in which the application it triggers has begun (R228, R239, R240). -/
def State.regionAccess (s : State) (w : Work) : Bool × State :=
  s.regions.foldl (fun acc r =>
    r.shares.foldl (fun acc x =>
      if x.state != .closed && s.meets w r x then
        if x.state != .opened || s.ahead w r x then (false, acc.2)
        else if w.triggers x then
          (false, match acc.2.region r.sid with
            | some r' => acc.2.startApply r' ((r'.share x.chan).getD x) .applying [] false
            | none => acc.2)
        else acc
      else acc) acc) (true, s)

/-- Some item is held at a share, before the given moment where one is given. -/
def State.holdsBefore (s : State) (since : Option Nat) (r : Region) (x : Share) : Bool :=
  s.work.any (fun w => s.meets w r x &&
    (match w.heldSince, since with | some a, some b => decide (a < b) | some _, none => true | none, _ => false))

/-- Some item is held at a share. -/
def State.holdsAny (s : State) (r : Region) (x : Share) : Bool := s.holdsBefore none r x

/-- Nothing is held at a channel that a read of ranges would pass there (R239). -/
def State.readTurn (s : State) (ranges : List (Nat × Nat)) : Bool :=
  s.regions.all (fun r => r.shares.all (fun x =>
    x.state == .closed || !s.holdsAny r x || ranges.all (fun p => !s.regionBytes p.1 p.2 r x)))

/-- Nothing is held at any share, or nothing that was held before the moment given: a read that follows addresses from memory passes
nothing (R239, log 81). -/
def State.sharesFree (s : State) (since : Option Nat) : Bool := s.regions.all (fun r => r.shares.all (fun x => !s.holdsBefore since r x))

/-- The applications that a read of ranges at this moment triggers, or meets, have ended (R228): the read is performed in the same
step. None begins where something is held: what is pending there was accepted after that had arrived, and the read takes its place
before it (R239, R240, log 81). -/
def State.applyNow (s : State) (ranges : List (Nat × Nat)) : State :=
  s.regions.foldl (fun s r =>
    r.shares.foldl (fun s x =>
      if ranges.any (fun p => s.regionBytes p.1 p.2 r x) then
        match s.region r.sid with
        | some r =>
          (match r.share x.chan with
            | some x =>
              if x.state = .closed then s
              else
                let s := if x.state = .opened ∧ !s.holdsAny r x then s.startApply r x .applying [] false else s
                (match (s.region r.sid).bind (fun r => (r.share x.chan).map (r, ·)) with
                  | some (r, x) => if x.state = .opened then s else s.endApply r x
                  | none => s)
            | none => s)
        | none => s
      else s) s) s

end Sys2Proof.Machine
end

