-- ==== Sys2Proof/Machine/Translate.lean ====
section
/-! DEFINITION. Translation and the checks of an address (07 R106, 13 R184-R187, 20 R273-R278, 21 R301). -/

set_option Elab.async false

namespace Sys2Proof.Machine

open Sys2Proof

/-! ## Translation (R273-R278) -/

/-- The rights an access needs of its page (R276). -/
structure Need where
  r : Bool := false
  w : Bool := false
  x : Bool := false
deriving DecidableEq, Repr

/-- A HOME code that R275 lists. -/
def homeCodeOk (h : Nat) : Bool := h ≤ 2 || (0x10 ≤ h && h ≤ 0x2F)

/-- A valid entry with no reserved bit, memory type or home code (R275). -/
def pteOk (p : Nat) : Bool :=
  p.testBit 0 && bits p 55 48 == 0 && bits p 11 10 == 0 && !p.testBit 7 && decide (bits p 9 8 ≤ 1) && homeCodeOk (bits p 63 56)

/-- The entry points to the next table. -/
def ptePointer (p : Nat) : Bool := !p.testBit 1 && !p.testBit 2 && !p.testBit 3

/-- The physical key of an entry's frame: PhysOf (R274). -/
def pteKey (p : Nat) : Nat := bits p 63 56 * 2 ^ 56 + bits p 47 12 * 2 ^ 12

/-- The leaf page size of a level (R274). -/
def pageSize (lvl : Nat) : Nat := 2 ^ (12 + 9 * lvl)

/-- A leaf that its level allows, its low frame bits clear (R274). -/
def leafOk (p lvl : Nat) : Bool :=
  decide (lvl ≤ 2) && !(p.testBit 2 && !p.testBit 1) && !(p.testBit 6 && lvl == 1) && pteKey p % pageSize lvl == 0

/-- An entry as a walk of a core reads it: at its home, the issuing cluster's sector written back and emptied before and the pairs
pending there applied (R196, R228, R274, R300); zero where there is no such home. -/
def State.readEntry (s : State) (core at_ : Nat) : Nat × State :=
  if s.unpopulated at_ || !s.reachable core at_ then (0, s)
  else
    let s := ((s.settleSector core at_).touch at_).applyNow [(at_, 8)]
    (s.withWriteBacks core at_ 8 (s.readNat at_ 8), s.correct core (s.wordsAt at_ 8))

/-- The entries from an address, each as a walk reads it. -/
def State.readEntries (s : State) (core at_ : Nat) : Nat → List Nat × State
  | 0 => ([], s)
  | n + 1 =>
    let (p, s) := s.readEntry core at_
    let (l, s) := s.readEntries core (at_ + 8) n
    (p :: l, s)

/-- An entry is a leaf that its level allows. -/
def isLeaf (p lvl : Nat) : Bool := pteOk p && !ptePointer p && leafOk p lvl

/-- The permissions hold for a user or a privileged thread (R276). -/
def permits (p : Nat) (need : Need) (user : Bool) : Bool :=
  (!need.r || p.testBit 1) && (!need.w || p.testBit 2) && (!need.x || p.testBit 3) && (!user || p.testBit 4)

/-- A translation covers an address in an address space. -/
def Trans.covers (t : Trans) (asid va : Nat) : Bool :=
  (t.global || t.asid == asid) && decide (t.lo ≤ va) && decide (va < t.lo + t.size)

/-- The key a translation gives an address. -/
def Trans.keyOf (t : Trans) (va : Nat) : Nat := pteKey t.pte + (va - t.lo)

/-- The capability list's page that covers an address: it is readable by every thread of every partition (R298). -/
def State.capTrans (s : State) (asid va : Nat) : Option Trans :=
  match s.capFrame with
  | none => none
  | some f =>
    let base := s.cap.toNat / 4096 * 4096
    if base ≤ va ∧ va < s.cap.toNat + s.capRecords.length then
      some ⟨asid, true, va / 4096 * 4096, 4096, 0x33 + f + (va / 4096 * 4096 - base)⟩
    else none

/-- A raw tensor's page that covers an address: the device maps it in the address space that the tensor was created in, and
in no other (R51, R61, R224, log 66). -/
def State.rawTrans (s : State) (asid va : Nat) : Option Trans :=
  match s.tensors.find? (fun t => t.rawPte != 0 && t.asid == asid && decide (t.rawBase ≤ va) &&
      decide (va < t.rawBase + 4096 * t.frames.length)) with
  | some t =>
    match t.frames[(va - t.rawBase) / 4096]? with
    | some f => some ⟨asid, false, t.rawBase + (va - t.rawBase) / 4096 * 4096, 4096, t.rawPte + f⟩
    | none => none
  | none => s.capTrans asid va

/-- The 16 entries of an address's group held as one, by the entry of it that is used: where the schedule has the group read, any of
them that is a leaf with C = 1, or none, as it chooses (R277). -/
def State.combined (s : State) (core asid va table lvl : Nat) : Option Trans × State :=
  if lvl = 1 ∨ 2 < lvl then (none, s)
  else
    let (group, s) := s.choose 2
    if group = 0 then (none, s)
    else
      let size := pageSize lvl
      let (l, s) := s.readEntries core (table + 8 * (va / size % 512 / 16 * 16)) 16
      let leaves := l.zipIdx.filter (fun p => isLeaf p.1 lvl && p.1.testBit 6 && decide (size * p.2 ≤ pteKey p.1 % 2 ^ 56))
      let (c, s) := s.choose (leaves.length + 1)
      match leaves[leaves.length - c]? with
      | some (q, j) => (some ⟨asid, q.testBit 5, va / (16 * size) * (16 * size), 16 * size, q - size * j⟩, s)
      | none => (none, s)

/-- The walk from a table: the leaf as a holder keeps it, none where the walk faults (R274, R277). -/
def State.walkFrom (s : State) (core asid va : Nat) : Nat → Nat → Option Trans × State
  | table, lvl =>
    let size := pageSize lvl
    let (p, s) := s.readEntry core (table + 8 * (va / size % 512))
    match s.combined core asid va table lvl with
    | (some t, s) => (some t, s)
    | (none, s) =>
      if isLeaf p lvl then (some ⟨asid, p.testBit 5, va / size * size, size, p⟩, s)
      else
        match lvl with
        | 0 => (none, s)
        | n + 1 => if pteOk p && ptePointer p then s.walkFrom core asid va (pteKey p) n else (none, s)

/-- The size of the page of a translation: of one of the 16 that a combined entry holds (R277). -/
def Trans.page (t : Trans) : Nat := if t.size = 2 ^ 16 then 2 ^ 12 else if t.size = 2 ^ 34 then 2 ^ 30 else t.size

/-- A fresh walk from a thread's cr.pgroot. -/
def State.walk (s : State) (core asid root va : Nat) : Option Trans × State :=
  if homeCodeOk (bits root 63 56) then s.walkFrom core asid va (pteKey root) 4 else (none, s)

/-- The translation of an address for an access: from what the core or its die holds, or by a walk, with the
cause of a fault (R274, R276, R278, R301). A held entry may have been replaced: then the access walks. -/
def State.translate (s : State) (core asid root : Nat) (user fetch : Bool) (va : Nat) (need : Need) :
    Except Nat Trans × State :=
  let check (t : Trans) : Except Nat Trans :=
    if s.frameDead (t.keyOf va) t.page then .error 0x11
    else if permits t.pte need user then .ok t else .error 0x12
  match s.rawTrans asid va with
  | some t => (check t, s)
  | none =>
    let c := s.core core
    let held := if fetch then c.itlb else c.dtlb
    match (held ++ (s.die (dieOf core)).tlb).find? (fun t => t.covers asid va) with
    | some t =>
      let (drop, s) := s.choose 2
      if drop = 0 then (check t, s)
      else
        match s.walk core asid root va with
        | (none, s) => (.error 0x11, s)
        | (some t, s) => (check t, s)
    | none =>
      match s.walk core asid root va with
      | (none, s) => (.error 0x11, s)
      | (some t, s) =>
        match check t with
        | .error e => (.error e, s)
        | .ok t =>
          let c := s.core core
          let s := s.setCore core (if fetch then { c with itlb := t :: c.itlb } else { c with dtlb := t :: c.dtlb })
          let d := s.die (dieOf core)
          (.ok t, s.setDie (dieOf core) { d with tlb := t :: d.tlb })

/-- The acting thread is a user: without privilege and outside handler mode (R276). -/
def State.user (s : State) : Bool := !s.privileged

/-- Translation for the acting thread. -/
def State.translateMe (s : State) (va : Nat) (need : Need) : Except Nat Trans × State :=
  s.translate s.curCore s.src.asid.toNat s.src.pgroot.toNat s.user false va need

/-! ## Address checks (R106) -/

/-- A window address that passed checks 1 and 2: its window, entry number, core and local address. -/
structure Place where
  win : Nat
  entry : Nat
  core : Nat
  loc : Nat
deriving DecidableEq, Repr

/-- The core and local address an offset maps to (R185). -/
def mapOffset (win base off : Nat) : Nat × Nat :=
  if win = 1 then (base + off / 64 % 16, off / 1024 * 64 + off % 64) else (base + off / 2 ^ 18, off % 2 ^ 18)

/-- Check 1 of R106 on an address: its top byte is 0x00 or 0xF0, a window address uses only the fields of R184,
and its cluster is present. -/
def State.wellPlaced (s : State) (ea : Nat) : Bool :=
  let top := ea / 2 ^ 56
  top == 0 ||
  (top == 0xF0 && bits ea 51 43 == 0 && !ea.testBit 39 && bits ea 31 22 == 0 &&
    (bits ea 55 52 == 2 || bits ea 42 40 == 0) && s.clusterPresent (bits ea 38 32))

/-- Checks 1 and 2 of R106 on a window address, cr.seg applied (R184-R187). -/
def State.place (s : State) (ea : Nat) (seg : Nat) (wins : Nat → Bool) : Except Nat Place :=
  if !s.wellPlaced ea then .error 0x14
  else
    let win := bits ea 55 52
    if !wins win then .error 0x15
    else
      let off := ea % 2 ^ 22 + seg
      if 2 ^ 22 ≤ off then .error 0x16
      else
        let (core, loc) := mapOffset win (bits ea 38 32 * 16) off
        if s.present core then .ok ⟨win, bits ea 42 40, core, loc⟩ else .error 0x14

/-- The granule that holds the last byte of an access in window 1 falls to a core that is present (R106, R185). -/
def State.lastPresent (s : State) (p : Place) (off n : Nat) : Bool :=
  p.win != 1 || decide (2 ^ 22 < off + n) || s.present (mapOffset 1 (p.core / 16 * 16) (off + n - 1)).1

/-- Windows 0 and 1 only. -/
def rawWindows (w : Nat) : Bool := w ≤ 1

/-- All the checks of R106 on an access of n bytes, in order; `global` where a global address is accepted, and
`atHome` for an access that is performed at its home whatever the memory type (R196). -/
def State.checkAddr (s : State) (ea : Word) (n : Nat) (wins : Nat → Bool) (global : Bool) (need : Need)
    (atHome : Bool) : Except Nat Access × State :=
  let a := ea.toNat
  if a / 2 ^ 56 = 0xF0 then
    match s.place a s.src.seg wins with
    | .error e => (.error e, s)
    | .ok p =>
      if !s.lastPresent p (a % 2 ^ 22 + s.src.seg) n then (.error 0x14, s)
      else if a % n != 0 then (.error 0x13, s) else (.ok ⟨scratchKey p.core p.loc, n, .scratch, ea, []⟩, s)
  else if a / 2 ^ 56 = 0 then
    if !global then (.error 0x15, s)
    else if a % n != 0 then (.error 0x13, s)
    else
      match s.translateMe a need with
      | (.error e, s) => (.error e, s)
      | (.ok t, s) =>
        let k := t.keyOf a
        if !s.reachable s.curCore k then (.error 0x17, s)
        else (.ok ⟨k, n, if atHome || bits t.pte 9 8 == 1 then .home else .cached, ea, [t]⟩, s)
  else (.error 0x14, s)

end Sys2Proof.Machine
end

