-- ==== Sys2Proof/Machine/Access.lean ====
section
/-! DEFINITION. The scalar and vector memory instructions, prefetches and fences at issue (07 R106-R112,
12 R180-R183, 13 R188-R191). -/

set_option Elab.async false

namespace Sys2Proof.Machine

open Sys2Proof

/-- The effective address of a CM instruction (R106). -/
def effective (base : Word) (off : BitVec 9) (scale : Nat) : Word := base + off.signExtend 64 * BitVec.ofNat 64 scale

/-- Sends a load of the acting thread. -/
def State.sendLoad (s : State) (parts : List Access) (d : Dst) (ext : Extend) : State :=
  match parts with
  | [] => s
  | a :: _ => s.send (s.accessHome s.curCore a) [] false (.load parts 0 0 none d ext)

/-- Sends a store of the acting thread. -/
def State.sendStore (s : State) (a : Access) (data mask : Nat) : State :=
  s.send (s.accessHome s.curCore a) [] false (.store a data mask)

/-- A scalar load of n bytes (R107). -/
def scalarLoad (t base : Opd) (off : BitVec 9) (n : Nat) (ext : Extend) (s : State) : Out :=
  withOperands [⟨.scalar, .dst, t⟩, ⟨.scalar, .src, base⟩] s fun s0 =>
    let (b, s) := s0.readS base
    let ea := effective b off n
    match s.checkAddr ea n rawWindows true { r := true } false with
    | (.error e, _) => .next (s0.trap e ea)
    | (.ok a, s) => unlessHeld s0 s [a] false fun s =>
      let (d, s) := s.dstS t
      .next (s.sendLoad [a] d ext).complete

/-- A scalar store of n bytes; the base pops before t (R31, R107). -/
def scalarStore (t base : Opd) (off : BitVec 9) (n : Nat) (s : State) : Out :=
  withOperands [⟨.scalar, .src, base⟩, ⟨.scalar, .src, t⟩] s fun s0 =>
    let (b, s) := s0.readS base
    let (x, s) := s.readS t
    let ea := effective b off n
    match s.checkAddr ea n rawWindows true { w := true } false with
    | (.error e, _) => .next (s0.trap e ea)
    | (.ok a, s) => unlessHeld s0 s [a] true fun s =>
      .next (s.sendStore a (x.toNat % 2 ^ (8 * n)) (bytesMask n)).complete

/-- ld.b (R107). -/
def execLdB (t base : Opd) (off : BitVec 9) (s : State) : Out := scalarLoad t base off 1 .sign s
/-- ld.h (R107). -/
def execLdH (t base : Opd) (off : BitVec 9) (s : State) : Out := scalarLoad t base off 2 .sign s
/-- ld.w (R107). -/
def execLdW (t base : Opd) (off : BitVec 9) (s : State) : Out := scalarLoad t base off 4 .sign s
/-- ld.d (R107). -/
def execLdD (t base : Opd) (off : BitVec 9) (s : State) : Out := scalarLoad t base off 8 .zero s
/-- ld.bu (R107). -/
def execLdBu (t base : Opd) (off : BitVec 9) (s : State) : Out := scalarLoad t base off 1 .zero s
/-- ld.hu (R107). -/
def execLdHu (t base : Opd) (off : BitVec 9) (s : State) : Out := scalarLoad t base off 2 .zero s
/-- ld.wu (R107). -/
def execLdWu (t base : Opd) (off : BitVec 9) (s : State) : Out := scalarLoad t base off 4 .zero s
/-- st.b (R107). -/
def execStB (t base : Opd) (off : BitVec 9) (s : State) : Out := scalarStore t base off 1 s
/-- st.h (R107). -/
def execStH (t base : Opd) (off : BitVec 9) (s : State) : Out := scalarStore t base off 2 s
/-- st.w (R107). -/
def execStW (t base : Opd) (off : BitVec 9) (s : State) : Out := scalarStore t base off 4 s
/-- st.d (R107). -/
def execStD (t base : Opd) (off : BitVec 9) (s : State) : Out := scalarStore t base off 8 s

/-! ## Full/empty accesses (R109) -/

/-- A full/empty load: an acquire that waits at its word's bank (R109). -/
def feLoad (op : FeOp) (t base : Opd) (off : BitVec 9) (s : State) : Out :=
  withOperands [⟨.scalar, .dst, t⟩, ⟨.scalar, .src, base⟩] s fun s0 =>
    let (b, s) := s0.readS base
    let ea := effective b off 8
    match s.checkAddr ea 8 rawWindows false {} false with
    | (.error e, _) => .next (s0.trap e ea)
    | (.ok a, s) => unlessHeld s0 s [a] (op == .ldFe) fun s =>
      let (d, s) := s.dstS t
      .next (s.send (s.accessHome s.curCore a) [] true (.fe op a d 0)).complete

/-- A full/empty store: a release at the smallest scope that contains its word's home (R109). -/
def feStore (op : FeOp) (t base : Opd) (off : BitVec 9) (s : State) : Out :=
  withOperands [⟨.scalar, .src, base⟩, ⟨.scalar, .src, t⟩] s fun s0 =>
    let (b, s) := s0.readS base
    let (x, s) := s.readS t
    let ea := effective b off 8
    match s.checkAddr ea 8 rawWindows false {} false with
    | (.error e, _) => .next (s0.trap e ea)
    | (.ok a, s) => unlessHeld s0 s [a] true fun s =>
      .next (s.sendRelease (s.scope s.curCore a.key) (s.accessHome s.curCore a) false (.fe op a .none x)).complete

/-- ld.fe (R109). -/
def execLdFe (t base : Opd) (off : BitVec 9) (s : State) : Out := feLoad .ldFe t base off s
/-- ld.ff (R109). -/
def execLdFf (t base : Opd) (off : BitVec 9) (s : State) : Out := feLoad .ldFf t base off s
/-- st.ef (R109). -/
def execStEf (t base : Opd) (off : BitVec 9) (s : State) : Out := feStore .stEf t base off s
/-- st.f (R109). -/
def execStF (t base : Opd) (off : BitVec 9) (s : State) : Out := feStore .stF t base off s

/-! ## Window accesses (R108, R181, R188-R191) -/

/-- A window access that passed its checks: the entry's word, whether it is the plane window, the key of its
first byte, how many bytes, and the bit of its first code within them. -/
structure WindowSpan where
  entry : Word
  plane : Bool
  key : Nat
  n : Nat
  bit : Nat
  core : Nat
deriving DecidableEq, Repr

/-- The checks of a `count`-element access through a window, in order: R106's first two, the entry (0x31), the
element named (0x13), and the end of the core (0x14). DESIGN CHOICE (log 99): the access takes every byte from its first to its last, so
a load of a scaled element reads those between the block's scale and its code too. -/
def State.windowSpan (s : State) (ea : Word) (wins : Nat → Bool) (count : Nat) : Except Nat WindowSpan :=
  let a := ea.toNat
  if a / 2 ^ 56 = 0 then .error 0x15
  else
    match s.place a s.src.seg wins with
    | .error e => .error e
    | .ok p =>
      let plane := p.win == 2
      let word := vget s.me.win (if plane then p.entry else p.win - 3) 0
      let en := entryOf word
      if !en.ok plane || (count == 16 && (plane || en.sfmt != 0) && en.len != 16) then .error 0x31
      else if plane then
        if p.loc % 8 != 0 then .error 0x13
        else if 2 ^ 18 < p.loc + planeBytes en.len en.planes then .error 0x14
        else .ok ⟨word, true, scratchKey p.core p.loc, planeBytes en.len en.planes, 0, p.core⟩
      else
        match en.element p.loc with
        | none => .error 0x13
        | some e =>
          if count == 16 && !en.byteAddressed && e % 16 != 0 then .error 0x13
          else
            let first := en.codeBit e
            let last := first + count * en.width
            let start := if en.sfmt = 0 then first / 8 else en.scaleByte e
            let stop := (last + 7) / 8
            if 2 ^ 18 < stop then .error 0x14
            else .ok ⟨word, false, scratchKey p.core start, stop - start, first - 8 * start, p.core⟩

/-- The parts of a span as accesses, line by line. -/
def WindowSpan.parts (w : WindowSpan) (ea : Word) : List (Access × Nat) :=
  (cutLines w.key w.n 0 4).map (fun p => (⟨p.1, p.2.1, .scratch, ea, []⟩, p.2.2))

/-- Loads `count` elements through a window into a destination. -/
def windowLoad (us : List Use) (base : Opd) (off : BitVec 9) (wins : Nat → Bool) (count : Nat)
    (dst : State → Dst × State) (s : State) : Out :=
  withOperands us s fun s0 =>
    let (b, s) := s0.readS base
    let ea := effective b off 1
    match s.windowSpan ea wins count with
    | .error e => .next (s0.trap e ea)
    | .ok w => unlessHeld s0 s ((w.parts ea).map (·.1)) false fun s =>
      let (ds, s) := s.drawsFor (modeOf (entryOf w.entry).rm) count
      let (d, s) := dst s
      .next (s.sendLoad ((w.parts ea).map (·.1)) d (.window w.entry w.bit count w.plane ds)).complete

/-- Windows 3 to 10. -/
def formatWindows (w : Nat) : Bool := 3 ≤ w && w ≤ 10
/-- Windows 2 to 10. -/
def elementWindows (w : Nat) : Bool := 2 ≤ w && w ≤ 10

/-- ldw: one element through a format window (R108). -/
def execLdw (t base : Opd) (off : BitVec 9) (s : State) : Out :=
  windowLoad [⟨.scalar, .dst, t⟩, ⟨.scalar, .src, base⟩] base off formatWindows 1 (fun s => s.dstS t) s

/-- vldw: sixteen elements through a window (R181). -/
def execVldw (t base : Opd) (off : BitVec 9) (s : State) : Out :=
  windowLoad [⟨.vector, .dst, t⟩, ⟨.scalar, .src, base⟩] base off elementWindows 16
    (fun s => s.dstV t (BitVec.allOnes 16)) s

/-- Sends the stores of masked bytes to a span, a part for each line. -/
def State.sendSpan (s : State) (parts : List (Access × Nat)) (data mask : Nat) : State :=
  parts.foldl (fun s p =>
    s.sendStore p.1 (data / 2 ^ (8 * p.2) % 2 ^ (8 * p.1.n)) (mask / 2 ^ (8 * p.2) % 2 ^ (8 * p.1.n))) s

/-- Sixteen values encoded through an entry: the bytes and the bits they write (R158-R161, R181, R190). -/
def encodeSpan (w : WindowSpan) (draws : List Nat) (vs : List Val) : Nat × Nat × FFlags :=
  let en := entryOf w.entry
  let mode := modeOf en.rm
  if w.plane then
    let (b, g) := encodePlane en.efmt en.sfmt en.planes mode en.sat draws vs
    (b.toNat en.planes, bytesMask w.n, g)
  else if en.sfmt = 0 then
    let (cs, g) := roundAll ((fmtOf en.efmt).getD fp32) mode en.sat draws vs
    (packCodes en.width cs * 2 ^ w.bit, (2 ^ (vs.length * en.width) - 1) * 2 ^ w.bit, g)
  else
    let (sc, cs, g) := encodeBlock en.efmt en.sfmt mode en.sat draws vs
    (sc + packCodes en.width cs * 2 ^ w.bit, 255 + (2 ^ (vs.length * en.width) - 1) * 2 ^ w.bit, g)

/-- vstw: sixteen elements encoded at the issuing core and stored through a window; its flags never trap (R181). -/
def execVstw (t base : Opd) (off : BitVec 9) (s : State) : Out :=
  withOperands [⟨.scalar, .src, base⟩, ⟨.vector, .src, t⟩] s fun s0 =>
    let (b, s) := s0.readS base
    let (x, s) := s.readV t
    let ea := effective b off 1
    match s.windowSpan ea elementWindows 16 with
    | .error e => .next (s0.trap e ea)
    | .ok w => unlessHeld s0 s ((w.parts ea).map (·.1)) true fun s =>
      let (ds, s) := s.drawsFor (modeOf (entryOf w.entry).rm) 16
      let (data, mask, g) := encodeSpan w ds ((Sys2Proof.lanes x).map (fun l => decode fp32 l.toNat))
      let s := s.setThread (s.thread.addFlags g)
      .next (s.sendSpan (w.parts ea) data mask).complete

/-! ## Whole-register accesses, gather and scatter (R180, R182, R183) -/

/-- vld (R180). -/
def execVld (t base : Opd) (off : BitVec 9) (s : State) : Out :=
  withOperands [⟨.vector, .dst, t⟩, ⟨.scalar, .src, base⟩] s fun s0 =>
    let (b, s) := s0.readS base
    let ea := effective b off 64
    match s.checkAddr ea 64 rawWindows true { r := true } false with
    | (.error e, _) => .next (s0.trap e ea)
    | (.ok a, s) => unlessHeld s0 s [a] false fun s =>
      let (d, s) := s.dstV t (BitVec.allOnes 16)
      .next (s.sendLoad [a] d .raw).complete

/-- vst (R180). -/
def execVst (t base : Opd) (off : BitVec 9) (s : State) : Out :=
  withOperands [⟨.scalar, .src, base⟩, ⟨.vector, .src, t⟩] s fun s0 =>
    let (b, s) := s0.readS base
    let (x, s) := s.readV t
    let ea := effective b off 64
    match s.checkAddr ea 64 rawWindows true { w := true } false with
    | (.error e, _) => .next (s0.trap e ea)
    | (.ok a, s) => unlessHeld s0 s [a] true fun s => .next (s.sendStore a x.toNat (bytesMask 64)).complete

/-- The accesses of the active lanes of a gather or scatter, all checked before any is made; a failing lane gives
its cause, address and number (R182). -/
def State.laneAccesses (s : State) (base : Word) (idx : VWord) (mask : MWord) :
    List Nat → Except (Nat × Word × Nat) (List (Nat × Access))
  | [] => .ok []
  | i :: r =>
    if mask.getLsbD i then
      let ea := base + 4 * (lane idx i).setWidth 64
      match (s.checkAddr ea 4 rawWindows false {} false).1 with
      | .error e => .error (e, ea, i)
      | .ok a =>
        match s.laneAccesses base idx mask r with
        | .error e => .error e
        | .ok l => .ok ((i, a) :: l)
    else s.laneAccesses base idx mask r

/-- The accesses of the lanes have been sent, after the first state: those to the core's own banks are one run (R183). -/
def asRun (before s : State) : State := s.laneRun s.curCore before.nextId s.nextId

/-- vgat: each active lane is a load of its own (R182, R183). -/
def execVgat (a b c : Opd) (m : BitVec 3) (s : State) : Out :=
  withOperands [⟨.vector, .dst, a⟩, ⟨.scalar, .src, b⟩, ⟨.vector, .src, c⟩] s fun s0 =>
    let (base, s) := s0.readS b
    let (idx, s) := s.readV c
    let mask := s.maskOf m
    match s.laneAccesses base idx mask (List.range 16) with
    | .error (e, ea, i) => .next (s0.trap e ea (BitVec.ofNat 64 i))
    | .ok l => unlessHeld s0 s (l.map (·.2)) false fun s =>
      if a.isQueue then
        let (n, s) := s.push (queueOf a) l.length 0
        .next (asRun s (l.foldl (fun s ia => s.sendLoad [ia.2] (.q (queueOf a) n) (.lane ia.1)) s)).complete
      else .next (asRun s (l.foldl (fun s ia => s.sendLoad [ia.2] (.v a.toNat (2 ^ ia.1)) (.lane ia.1)) s)).complete

/-- vsct: each active lane is a store of its own, in lane order (R182, R183). -/
def execVsct (a b c : Opd) (m : BitVec 3) (s : State) : Out :=
  withOperands [⟨.vector, .src, a⟩, ⟨.scalar, .src, b⟩, ⟨.vector, .src, c⟩] s fun s0 =>
    let (x, s) := s0.readV a
    let (base, s) := s.readS b
    let (idx, s) := s.readV c
    let mask := s.maskOf m
    match s.laneAccesses base idx mask (List.range 16) with
    | .error (e, ea, i) => .next (s0.trap e ea (BitVec.ofNat 64 i))
    | .ok l => unlessHeld s0 s (l.map (·.2)) true fun s =>
      .next (asRun s (l.foldl (fun s ia => s.sendStore ia.2 (lane x ia.1).toNat (bytesMask 4)) s)).complete

/-! ## Prefetch (R110) -/

/-- pf: fills the sector into the issuing cluster's cache, or, as a hint may, does nothing (R110), as it does while the core's earlier
items to the sector's home have not been performed (R289). -/
def execPf (lvl : BitVec 6) (base : Opd) (off : BitVec 9) (s : State) : Out :=
  withOperands [⟨.scalar, .src, base⟩] s fun s0 =>
    let (b, s) := s0.readS base
    let ea := effective b off 64
    let (skip, s) := s.choose 2
    match s.checkAddr ea 64 rawWindows true { r := true } false with
    | (.ok a, s') =>
      let busy := s.work.any (fun w => w.writesBack (clusterOf s.curCore) (a.key / 64 * 64))
      if skip = 0 ∧ a.via = .cached ∧ !busy ∧ !s.homeBusy s.curCore a.key ∧ !s.inRegion a.key 64 then
        let s := s'
        let s := if ((s.cluster (clusterOf s.curCore)).sector a.key).any (·.fill) then s
          else (s.countEvent s.curCore 1 1).fillSector s.curCore a.key a.trans
        let cl := s.cluster (clusterOf s.curCore)
        let s := match cl.sector a.key with
          | some x => s.setCluster (clusterOf s.curCore) (cl.putSector { x with first := lvl == 1 })
          | none => s
        .next s.complete
      else .next s.complete
    | _ => .next s.complete

/-- ipf: fills the block into the second- or third-level instruction cache, or does nothing (R110, R197). -/
def execIpf (lvl : BitVec 6) (base : Opd) (off : BitVec 9) (s : State) : Out :=
  withOperands [⟨.scalar, .src, base⟩] s fun s0 =>
    let (b, s) := s0.readS base
    let ea := effective b off 64
    let (skip, s) := s.choose 2
    match s.checkAddr ea 64 rawWindows true { r := true } true with
    | (.ok a, s') =>
      if skip = 0 ∧ a.via = .home ∧ !s.homeBusy s.curCore a.key ∧ !s.inRegion a.key 64 then
        let (x, _, s) := (s'.touch a.key).readHome s.curCore a.key 64
        let block := (a.key, BitVec.ofNat 512 x)
        if lvl = 0 then
          let cl := s.cluster (clusterOf s.curCore)
          .next (s.setCluster (clusterOf s.curCore) { cl with icache := block :: cl.icache.filter (·.1 != a.key) }).complete
        else
          let d := s.die (dieOf s.curCore)
          .next (s.setDie (dieOf s.curCore) { d with icache := block :: d.icache.filter (·.1 != a.key) }).complete
      else .next s.complete
    | _ => .next s.complete

/-! ## Fences (R111, R112) -/

/-- Continues a fence of a scope: it waits for the thread's earlier work, then for the write-backs it makes, and
then, at .die and .sys, drops the cluster's fills (R111, R112). `k` runs once it is complete. -/
def fenceThen (scope : Nat) (s : State) (k : State → Out) : Out :=
  let flush (s : State) : Out :=
    if scope < 2 then k s
    else
      let (ids, s) := s.flushFor s.curCore scope
      if ids.isEmpty then k (s.dropFills (clusterOf s.curCore)) else .next (s.parkWith (.wait 1 ids))
  match s.thread.pend with
  | .wait 1 ids => if s.gone ids then k (s.dropFills (clusterOf s.curCore)) else .next s.park
  | .wait _ ids => if s.gone ids then flush s else .next s.park
  | _ =>
    let ids := s.releaseDeps scope
    if ids.isEmpty then flush s else .next (s.parkWith (.wait 0 ids))

/-- fence.core (R111). -/
def execFenceCore (s : State) : Out := fenceThen 0 s fun s => .next s.complete
/-- fence.cl (R111). -/
def execFenceCl (s : State) : Out := fenceThen 1 s fun s => .next s.complete
/-- fence.die (R111). -/
def execFenceDie (s : State) : Out := fenceThen 2 s fun s => .next s.complete
/-- fence.sys (R111). -/
def execFenceSys (s : State) : Out := fenceThen 3 s fun s => .next s.complete

end Sys2Proof.Machine
end

