-- ==== Sys2Proof/Machine/Sync.lean ====
section
/-! DEFINITION. Atomics, barriers, monitors and messages at issue (18 R252-R262, 10 R143, R144). -/

set_option Elab.async false

namespace Sys2Proof.Machine

open Sys2Proof

/-- An instruction that parks until its request has been performed: it sends the request once, and completes or
traps by the answer (R256, R303). Room for what it pushes has been kept since (R31). -/
def withReply (us : List Use) (s : State) (start : State → Out) (finish : Word → State → Out) : Out :=
  match s.thread.pend with
  | .answered v => finish v s
  | .refused c ta ti => .next (s.trap c ta ti)
  | .wait .. => .next s.park
  | _ => withOperands us s start

/-- Sends a request and parks until it is answered. -/
def State.ask (s : State) (send : State → State) : State := (send s).parkWith (.wait 70 [s.nextId])

/-- A release that parks its thread makes its request once what it waits for is done: until then its instruction is tried afresh, and
holds no queue entry (R31, R111, R132). -/
def afterWork (s0 s : State) (scope : Nat) (k : State → Out) : Out :=
  if (s.releaseDeps scope).isEmpty && !s.acquiring then k s else .next s0.park

/-- An access that parks its thread makes its request once every earlier acquire has been performed (R109). -/
def afterAcquires (s0 s : State) (k : State → Out) : Out := if s.acquiring then .next s0.park else k s

/-- The acting thread acquires at this moment: no filled byte older than it is used from now on (R109, R251). -/
def State.acquireNow (s : State) : State := s.setThread { s.thread with acquired := s.tick }

/-! ## Atomics (R252-R254) -/

/-- An atomic of 8 bytes, or of 4 in the .w form, performed at its home (R252, R253). -/
def atomic (op : AmoOp) (w : Bool) (d addr val : Opd) (s : State) : Out :=
  let n := if w then 4 else 8
  let role : Role := if op = .cas then .both else .dst
  withOperands [⟨.scalar, role, d⟩, ⟨.scalar, .src, addr⟩, ⟨.scalar, .src, val⟩] s fun s0 =>
    let e : Word := if op = .cas then (s0.readS d).1 else 0
    let (ea, s) := s0.readS addr
    let (x, s) := s.readS val
    match s.checkAddr ea n rawWindows true { r := true, w := true } true with
    | (.error c, _) => .next (s0.trap c ea)
    | (.ok a, s) => unlessHeld s0 s [a] true fun s =>
      let (dst, s) := s.dstS d
      .next (s.send (s.accessHome s.curCore a) [] false (.amo op a dst x e)).complete

/-- amo.add (R253). -/
def execAmoAdd (w : Bool) (a b c : Opd) (s : State) : Out := atomic .add w a b c s
/-- amo.and (R253). -/
def execAmoAnd (w : Bool) (a b c : Opd) (s : State) : Out := atomic .and w a b c s
/-- amo.or (R253). -/
def execAmoOr (w : Bool) (a b c : Opd) (s : State) : Out := atomic .or w a b c s
/-- amo.xor (R253). -/
def execAmoXor (w : Bool) (a b c : Opd) (s : State) : Out := atomic .xor w a b c s
/-- amo.min (R253). -/
def execAmoMin (w : Bool) (a b c : Opd) (s : State) : Out := atomic .min w a b c s
/-- amo.max (R253). -/
def execAmoMax (w : Bool) (a b c : Opd) (s : State) : Out := atomic .max w a b c s
/-- amo.minu (R253). -/
def execAmoMinu (w : Bool) (a b c : Opd) (s : State) : Out := atomic .minu w a b c s
/-- amo.maxu (R253). -/
def execAmoMaxu (w : Bool) (a b c : Opd) (s : State) : Out := atomic .maxu w a b c s
/-- amo.swap (R253). -/
def execAmoSwap (w : Bool) (a b c : Opd) (s : State) : Out := atomic .swap w a b c s
/-- amo.cas; d holds the expected value (R252, R253). -/
def execAmoCas (w : Bool) (a b c : Opd) (s : State) : Out := atomic .cas w a b c s

/-! ## Barriers (R255-R257) -/

/-- A barrier instruction: its object is checked at issue, and it parks until its home has performed or refused
it (R256). -/
def barrier (op : Nat) (us : List Use) (obj : Opd) (arg : State → Word × State) (finish : State → Out) (s : State) : Out :=
  withReply us s
    (fun s0 =>
      let (ea, s) := s0.readS obj
      let (x, s) := arg s
      match s.checkAddr ea 16 rawWindows false {} false with
      | (.error c, _) => .next (s0.trap c ea)
      | (.ok a, s) =>
        let home := s.accessHome s.curCore a
        if op = 1 ∨ op = 2 then afterWork s0 s (s.scope s.curCore a.key) fun s =>
          .next (s.ask (fun s => s.sendRelease (s.scope s.curCore a.key) home false (.bar op a x)))
        else afterAcquires s0 s fun s => .next (s.ask (fun s => s.send home [] false (.bar op a x))))
    (fun _ s => finish s)

/-- bar.init (R256). -/
def execBarInit (a b : Opd) (s : State) : Out :=
  barrier 0 [⟨.scalar, .src, a⟩, ⟨.scalar, .src, b⟩] a (fun s => s.readS b) (fun s => .next s.complete) s
/-- bar.arr: a release (R256, R257). -/
def execBarArr (a : Opd) (s : State) : Out :=
  barrier 1 [⟨.scalar, .src, a⟩] a (fun s => (0, s)) (fun s => .next s.complete) s
/-- bar.exp: a release (R256, R257). -/
def execBarExp (a b : Opd) (s : State) : Out :=
  barrier 2 [⟨.scalar, .src, a⟩, ⟨.scalar, .src, b⟩] a (fun s => s.readS b) (fun s => .next s.complete) s
/-- bar.wait: an acquire (R256, R257). -/
def execBarWait (a b : Opd) (s : State) : Out :=
  barrier 3 [⟨.scalar, .src, a⟩, ⟨.scalar, .src, b⟩] a (fun s => s.readS b) (fun s => .next s.acquireNow.complete) s

/-! ## Monitors (R143, R258, R259) -/

/-- The lowest monitor number a thread has free. -/
def Thread.freeMonitor (t : Thread) : Nat :=
  ((List.range 4).find? (fun i => t.monitors.all (fun m => m.num != i))).getD 4

/-- mon.arm: arms the granule unless it is armed already, and parks until its home reports registration (R258). A monitor keeps the key
at which its granule is held (R281). -/
def execMonArm (a : Opd) (s : State) : Out :=
  withReply [⟨.scalar, .src, a⟩] s
    (fun s0 =>
      let (ea, s) := s0.readS a
      match s.checkAddr (ea &&& ~~~63) 64 rawWindows true { r := true, w := true } true with
      | (.error c, _) => .next (s0.trap c ea)
      | (.ok acc, s) =>
        let t := s.thread
        if t.monitors.any (fun m => m.key == s.fwd acc.key) then .next s.complete
        else if t.monitors.length ≥ 4 then .next (s0.trap 0x56 ea)
        else
          afterAcquires s0 s fun s =>
            let n := t.freeMonitor
            let s := s.setThread { t with monitors := t.monitors ++ [⟨n, s.fwd acc.key, ea, false, false⟩] }
            .next (s.ask (fun s => s.send (s.homeOf s.curCore acc.key) [] false (.monArm n (s.fwd acc.key) acc.trans))))
    (fun _ s => .next s.complete)

/-- The hit mask of a thread's monitors (R258). -/
def Thread.hits (t : Thread) : Nat := (t.monitors.map (fun m => if m.hit then 2 ^ m.num else 0)).foldl (· + ·) 0

/-- What a mon.wait reports: hits, whether its timeout has been reached, and whether the mailbox holds a message (R258). -/
def State.waitReport (s : State) : Word :=
  BitVec.ofNat 64 (s.thread.hits + (if s.thread.pend = .elapsed then 16 else 0) + (if s.me.mailbox.isEmpty then 0 else 32))

/-- mon.wait: parks until a hit, its timeout or a message, and reports them (R143, R258). Parked it has not issued (R132, R137): it pops
its timeout and pushes its report together when it goes on, and the timeout counts from its first try with the value that it read
then (log 63). -/
def execMonWait (a b : Opd) (s : State) : Out :=
  withOperands [⟨.scalar, .dst, a⟩, ⟨.scalar, .src, b⟩] s fun s0 =>
    let (tmo, s) := s0.readS b
    let x := s0.waitReport
    if x ≠ 0 then .next (s.resultS a x true).complete
    else
      match s0.thread.pend with
      | .deadline _ => .next s0.park
      | _ =>
        let n := tmo.toNat % 2 ^ 32
        .next (s0.parkWith (.deadline (if n = 0 then 0 else s0.me.clock + n)))

/-- mon.clr (R258). -/
def execMonClr (a : Opd) (s : State) : Out :=
  withOperands [⟨.scalar, .src, a⟩] s fun s =>
    let (mask, s) := s.readS a
    let t := s.thread
    .next (s.setThread { t with monitors := t.monitors.filter (fun m => !mask.getLsbD m.num) }).complete

/-- The timeout of a parked mon.wait is reached (R143): it is reported when the wait goes on. -/
def execMonitorTimeout (core slot : Nat) (s : State) : Out :=
  let t := s.threadAt core slot
  match t.pend with
  | .deadline d =>
    if d ≠ 0 ∧ d ≤ (s.core core).clock ∧ (t.slot = .parked ∨ t.slot = .ready) ∧ t.stopping.isNone then
      .next (s.setThreadAt core slot { t with pend := .elapsed })
    else .fault .noSuchEvent
  | _ => .fault .noSuchEvent

/-! ## Messages (R144, R260, R261) -/

/-- A core identifier that the acting thread's operand may name: no bit above bit 10, and a core that is present in its partition
(R260). -/
def State.coreNamed (s : State) (x : Word) : Bool := decide (x.toNat < 2 ^ 11) && s.inPartition s.curCore x.toNat

/-- The scope of a release whose home is a core, where that is now (R112, R336, R337). -/
def State.coreScope (s : State) (core target : Nat) : Nat := scopeOf core (scratchKey (s.coreAt target) 0)

/-- Messages of a core's threads on their way to another core. -/
def State.buffered (s : State) (core dest : Nat) : Nat :=
  (s.work.filter (fun w => w.source == (core, 0) && w.slot != 16 && w.home == mailHome dest)).length

/-- msg.send: a release; it parks only while its core's buffers toward the destination are full (R260). -/
def execMsgSend (a b c : Opd) (s : State) : Out :=
  withOperands [⟨.scalar, .src, a⟩, ⟨.scalar, .src, b⟩, ⟨.scalar, .src, c⟩] s fun s0 =>
    let (dst, s) := s0.readS a
    let (lo, s) := s.readS b
    let (hi, s) := s.readS c
    if !s.coreNamed dst then .next (s0.trap 0x57 dst)
    else if s.bufCap ≤ s.buffered s.curCore dst.toNat then .next s0.park
    else
      let s := s.countEvent s.curCore 4 1
      .next (s.sendRelease (s.coreScope s.curCore dst.toNat) (mailHome dst.toNat) false (.msg dst.toNat ⟨lo, hi⟩)).complete

/-- msg.wait: falls through when the mailbox holds a message, and pops nothing (R144). -/
def execMsgWait (s : State) : Out := if s.me.mailbox.isEmpty then .next s.park else .next s.complete

/-- The mailbox takes messages held at its input while it has room (R144). -/
def Core.fillMailbox (c : Core) : Core :=
  match c.inbox with
  | [] => c
  | m :: r => if c.mailbox.length < 16 then { c with mailbox := c.mailbox ++ [m], inbox := r } else c

/-- msg.pop: an acquire; the value of b remains where both name one register (R260, R261). -/
def execMsgPop (a b : Opd) (s : State) : Out :=
  withOperands [⟨.scalar, .dst, a⟩, ⟨.scalar, .dst, b⟩] s fun s =>
    match s.me.mailbox with
    | [] => .next s.park
    | m :: r =>
      let s := (s.setMe ({ s.me with mailbox := r }).fillMailbox).acquireNow
      let (d, s) := if a = b ∧ !a.isQueue then (Dst.none, s) else s.dstS a
      let (e, s) := s.dstS b
      .next ((s.returnLater d (m.lo.setWidth 512)).returnLater e (m.hi.setWidth 512)).complete

end Sys2Proof.Machine
end

