-- ==== Sys2Proof/Machine/Engine.lean ====
section
/-! DEFINITION. What the engines share: answers to parked threads, traps that wait for results, operands read at
issue, runs of scratchpad through windows, and ranges translated page by page (04 R55, 05 R73-R74, 06 R79,
13 R188-R193, 20 R286). -/

set_option Elab.async false

namespace Sys2Proof.Machine

open Sys2Proof

/-! ## Answers and results -/

/-- The state with another acting thread: an event acts for the thread whose item it performs. -/
def State.at_ (s : State) (core slot : Nat) : State := { s with curCore := core, curSlot := slot, inPair := false, snap := none }

/-- Answers the thread that parked for an item, if it still waits for it. -/
def State.answer (s : State) (w : Work) (p : Pend) : State :=
  let t := s.threadAt w.core w.slot
  match t.pend with
  | .wait _ ids => if ids.contains w.id then s.setThreadAt w.core w.slot { t with pend := p } else s
  | _ => s

/-- An acquire has been performed: what waited for that and is no release goes on; a release waits for its result as well (R109,
R111). Where the acquire was performed on arrival, the accesses to its own home keep the place that their issue gave them (R145, R147);
the others, which it has kept back, are sent now, behind what the core has sent by now (DEDUCED, log 100). A full/empty access waits
at its own bank and keeps its place. -/
def State.performedAcquire (s : State) (w : Work) : State :=
  if w.acquire then
    let waits (x : Work) : Bool := x.of w.core w.slot && !x.release && x.deps.contains w.id
    let stays (x : Work) : Bool := x.isFe || (w.arrived.isNone && x.home == w.home)
    let goOn (x : Work) : Work := if waits x then { x with deps := x.deps.filter (· != w.id) } else x
    { s with work := (s.work.filter (fun x => !waits x || stays x)).map goOn ++ (s.work.filter (fun x => waits x && !stays x)).map goOn }
  else s

/-- The item becomes a result on its way back (R24). -/
def State.toRet (s : State) (w : Work) (dst : Dst) (val : VWord) (bad : Option Word) (flags : BitVec 5)
    (trans : List Trans := []) : State :=
  (s.performedAcquire w).replaceWork
    { w with home := 0, deps := [], acquire := false, flush := none, arrived := none, holds := [], body := .ret dst val bad flags trans }

/-! ## Deques (R318) -/

/-- The deque of a stage on a core. -/
def Core.deque (c : Core) (g n : Nat) : Option Deque := c.deques.find? (fun d => d.graph == g && d.stage == n)

/-- Replaces the deque of its stage. -/
def Core.putDeque (c : Core) (d : Deque) : Core :=
  { c with deques := c.deques.map (fun x => if x.graph = d.graph ∧ x.stage = d.stage then d else x) }

/-- An item may join a deque: it holds fewer than its cap and the pool has room (R141, R318). -/
def Core.joins (c : Core) (d : Deque) : Bool :=
  decide (d.items.length < d.cap) && decide (1 ≤ c.poolRoom c.occupied)

/-- An item as it stands in a deque: its age is 0 when it joins its first (R322). -/
def Item.join (it : Item) : Item := if it.joined then it else { it with age := 0, joined := true }

/-- The first item held at a core's input that may join its deque, with that deque and the rest of the input. -/
def Core.joiner (c : Core) : List Item → Option (Item × Deque × List Item)
  | [] => none
  | it :: r =>
    match (c.deque it.graph it.stage).filter c.joins with
    | some d => some (it, d, r)
    | none => (c.joiner r).map (fun p => (p.1, p.2.1, it :: p.2.2))

/-- Items held at a core's input join the near ends of their deques while room appears, in arrival order (R318). -/
def Core.fillDeques (c : Core) : Nat → Core
  | 0 => c
  | n + 1 =>
    match c.joiner c.input with
    | none => c
    | some (it, d, r) => ({ c with input := r }.putDeque { d with items := it.join :: d.items }).fillDeques n

/-- The core with every item that may join joined. -/
def Core.settleDeques (c : Core) : Core := c.fillDeques c.input.length

/-- An item reaches a core: it joins its deque's near end, or waits at the input (R318). -/
def Core.accept (c : Core) (it : Item) : Core := { c with input := c.input ++ [it] }.settleDeques

/-- A stolen item that its take has not received joins the near end (R319). -/
def State.returnStolen (s : State) (core slot : Nat) : State :=
  let t := s.threadAt core slot
  match t.stolen with
  | none => s
  | some it =>
    let s := s.setThreadAt core slot { t with stolen := none }
    s.setCore core ((s.core core).accept it)

/-- Acts as another thread for a moment. -/
def State.actAs (s : State) (core slot : Nat) (f : State → State) : State :=
  { f (s.at_ core slot) with curCore := s.curCore, curSlot := s.curSlot, inPair := s.inPair, snap := s.snap }

/-- The thread's instruction has been tried and waits: it is PARKED, or READY to be tried again (R132). -/
def Thread.waiting (t : Thread) : Bool := t.slot == .parked || (t.slot == .ready && (t.pend != .none || !t.latch.isEmpty))

/-- The thread's parked instruction has had its effect elsewhere, or has sent what cannot be called back: it completes
before anything else happens to its thread. -/
def State.midway (s : State) (core slot : Nat) : Bool :=
  match (s.threadAt core slot).pend with
  | .answered _ | .performed .. | .refused .. => true
  | .wait _ ids => s.work.any (fun w => ids.contains w.id && (match w.body with | .lex .. | .close .. => true | _ => false))
  | _ => false

/-- The request that the thread's parked instruction has sent and that has not been performed. -/
def State.requestOf (s : State) (core slot : Nat) (w : Work) : Bool :=
  w.of core slot &&
    (match (s.threadAt core slot).pend with | .wait 70 ids | .wait 92 ids => ids.contains w.id | _ => false) &&
    (match w.body with | .bar .. | .fut .. | .monArm .. | .handle .. => true | _ => false)

/-- A parked instruction has not issued: what it asked for is called back, and it has popped nothing (R31, R137). -/
def State.withdrawIssue (s : State) (core slot : Nat) : State :=
  let asked := s.work.filter (s.requestOf core slot)
  let s := asked.foldl (fun s w =>
    match w.body with
    | .monArm num key _ =>
      let t := s.threadAt core slot
      s.setThreadAt core slot { t with monitors := t.monitors.filter (fun m => !(m.num == num && m.key == key && !m.registered)) }
    | _ => s) { s with work := s.work.filter (fun w => !s.requestOf core slot w),
                       phraseReqs := s.phraseReqs.filter (fun r => !(r.core == core && r.slot == slot)) }
  let a := (s.cluster (clusterOf core)).array
  let s := if a.waiting.contains (core, slot) then
      s.setCluster (clusterOf core) { s.cluster (clusterOf core) with array := { a with waiting := a.waiting.filter (· != (core, slot)) } }
    else s
  let c := s.core core
  let s := s.setCore core { c with emitParked := c.emitParked.filter (fun p => p.1 != slot) }
  let s := (s.actAs core slot State.unpop).returnStolen core slot
  s.setThreadAt core slot { s.threadAt core slot with pend := .none, latch := [] }

/-- Takes the traps that waited for a thread's outstanding results, once none remains (R25, R115, R122). A second fault 0x73 reports the
load or handle command that received the data (R117). A precise
trap decided at the same address gives way to uncorrectable data, which is written before its instruction issues. -/
def State.settle (s : State) (core slot : Nat) : State :=
  let t := s.threadAt core slot
  if (t.pendTrap.isNone && (!t.errDue || s.midway core slot)) || s.outstanding core slot || t.slot == .halted || t.slot == .empty then s
  else
    let stopped := t.slot == .stopped
    let s := if t.pendTrap.isNone && t.waiting then s.withdrawIssue core slot else s
    s.actAs core slot fun s =>
      let s := s.setThread { s.thread with pendTrap := none, errTrap := none }
      let s := match t.errTrap, t.pendTrap with
        | none, some p => s.trapEntry p.at_ p.pc p.cause p.taddr p.tinfo
        | some (a, by_, _), none => s.trapEntry by_ t.pc 0x73 a 0
        | some (a, by_, _), some p =>
          if p.pc = t.pc ∧ p.cause ≠ 0x60 then s.trapEntry by_ t.pc 0x73 a 0
          else
            let s := s.trapEntry p.at_ p.pc p.cause p.taddr p.tinfo
            if s.thread.slot = .halted then s else s.trapEntry by_ s.thread.pc 0x73 a 0
        | none, none => s
      if stopped ∧ s.thread.slot = .ready then s.setThread { s.thread with slot := .stopped } else s

/-- Every release of the item's thread that must be sent before it has been sent. -/
def State.mayBeSent (s : State) (w : Work) : Bool := (s.before w).all (fun x => !(x.unsent && x.blocks w))

/-- An item whose data arrives as zero, where it carries data to write (R122). -/
def Work.garbled (w : Work) : Option Work :=
  match w.body with
  | .store a _ m => some { w with link := .clean, body := .store a 0 m }
  | .fe op a d _ => if op == .stEf || op == .stF then some { w with link := .clean, body := .fe op a d 0 } else none
  | .writeBack c k _ m wr ts => some { w with link := .clean, body := .writeBack c k 0 m wr ts }
  | _ => none

/-- What the links have made of an item's data takes effect where it arrives (R121, R122): a correctable error is counted, and data to
write is zero if it was uncorrectable. A read keeps the mark until its result returns (log 101). -/
def State.linkData (s : State) (w : Work) : Work × State :=
  match w.link with
  | .clean => (w, s)
  | .corrected =>
    let x := { w with link := .clean }
    (x, (s.replaceWork x).countCorr w.core 1)
  | .corrupt =>
    match w.garbled with
    | some x => (x, s.replaceWork x)
    | none => (w, s)

/-! ## Arrivals during a move (R337) -/

/-- The cores that operations under way have begun to stop: those that a MOVE moves, or all that are saved. -/
def State.leaving (s : State) (moves : Bool) : List Nat :=
  s.work.flatMap (fun w => match w.body with
    | .preempt op _ l _ _ _ _ stage none => if 1 ≤ stage ∧ (op = 2 ∨ (op = 0 ∧ !moves)) then l else []
    | _ => [])

/-- What an item brings to a core that is being moved is held until it has been moved (R337). Items of cores that are themselves being
saved go on, so that they can be drained (log 102). -/
def State.heldByMove (s : State) (core : Nat) (w : Work) : Bool := (s.leaving true).contains core && !(s.leaving false).contains w.core

/-- The core that a home of accesses, messages, steals or probes is. -/
def homeCore (home : Nat) : Option Nat :=
  [0x10000, 0x50000, 0x73000, 0x74000].findSome? (fun b => if b ≤ home ∧ home < b + 0x800 then some (home - b) else none)

/-- The item is to arrive at a core that is being moved. -/
def State.holdsArrival (s : State) (w : Work) : Bool :=
  (homeCore w.home).any (fun c => s.heldByMove (if w.home < 0x20000 then chase s.moved c s.moved.length else s.coreAt c) w)

/-- An engine's access to ranges of keys reaches a core that is being moved. -/
def State.holdsRanges (s : State) (w : Work) (ranges : List (Nat × Nat)) : Bool :=
  !(s.leaving true).isEmpty && ranges.any (fun r => isScratch r.1 &&
    (List.range (r.2 / 2 ^ 18 + 2)).any (fun i => s.heldByMove (coreOfKey (s.fwd (min (r.1 + 2 ^ 18 * i) (r.1 + r.2 - 1)))) w))

/-- Begins an event on an item: a release whose conditions hold has its core's dirty sectors written back and is then sent
(R111, R112); any other item must be clear to be performed, with its channel awake (R300), no lanes of its core under way (R183), and no move of the
core it arrives at (R337). -/
def State.begin (s : State) (k : Nat) (act : Work → State → Out) : Out :=
  match s.findWork k with
  | none => .fault .noSuchEvent
  | some w =>
    let chan := channelHomed w.home
    if s.gone w.deps && w.sending then
      if !s.mayBeSent w then .fault .noSuchEvent
      else
        match w.flush with
        | some scope =>
          let (ids, s) := s.flushFor w.core scope
          if ids.isEmpty && !w.isFe then .next (s.sendNow w)
          else .next (s.replaceWork { w with deps := ids, flush := none })
        | none => .next (s.sendNow w)
    else if !s.clear w || chan.any (fun c => !s.channelAwake c) || s.betweenLanes w || s.holdsArrival w then .fault .noSuchEvent
    else
      let (w, s) := s.linkData w
      act w (match chan with | some c => s.touchChannel c | none => s)

/-- An access performed at its home first writes back and then empties the issuing cluster's sector (R196): none
while a write-back of it is on its way, with the state in which one has been started. -/
def State.homeFirst (s : State) (core : Nat) (a : Access) : Bool × State :=
  if a.via = .scratch then (true, s)
  else
    let k := a.key / 64 * 64
    if s.sectorBusy core k then (false, s)
    else
      match (s.cluster (clusterOf core)).sector k with
      | none => (true, s)
      | some x => if x.mask = 0 then (true, s.emptySector (clusterOf core) k) else (false, s.startWriteBack (clusterOf core) x)

/-! ## Operands read at issue (R73) -/

/-- The item writes bytes of the given range. -/
def Work.writes (w : Work) (key n : Nat) : Bool :=
  let hit (a : Access) : Bool := decide (a.key < key + n) && decide (key < a.key + a.n)
  match w.body with
  | .store a .. => hit a
  | .fe _ a .. => hit a
  | .amo _ a .. => hit a
  | .bar _ a _ => hit a
  | .fut _ a _ _ r => hit a || (match r with | some b => hit b | none => false)
  | _ => false

/-- The acting thread may read n bytes from a key now: its earlier stores to them have been performed, no earlier
command of it is to write them, and no acquire of it is outstanding. -/
def State.readable (s : State) (key n : Nat) : Bool :=
  !s.acquiring && !s.held key n false &&
  !s.work.any (fun w => w.of s.curCore s.curSlot && w.writes key n)

/-- An aligned scratchpad block of n bytes named by a register of an engine command; a failing check gives its
cause (R106, R187). -/
def State.blockAt (s : State) (ea : Word) (n : Nat) : Except Nat Access :=
  (s.checkAddr ea n rawWindows false {} false).1

/-- The key of offset 0 of the scratchpads of a core's cluster. -/
def clusterBase (core : Nat) : Nat := scratchKey (core / 16 * 16) 0

/-- The offset within its cluster of a core's local address. -/
def clusterOff (core loc : Nat) : Nat := posOf core * 2 ^ 18 + loc

/-- Every core that bytes from an offset to another of a cluster fall to is present. -/
def State.coresPresent (s : State) (core lo n : Nat) : Bool :=
  (List.range 16).all (fun p => s.present (core / 16 * 16 + p) || decide ((p + 1) * 2 ^ 18 ≤ lo) || decide (lo + n ≤ p * 2 ^ 18))

/-- The granules of a run of n bytes in window 1 from an offset (R185). -/
def granules (core : Nat) (off n : Nat) : Nat → List (Nat × Nat)
  | 0 => []
  | k + 1 =>
    if n = 0 then [] else
    let m := min n (64 - off % 64)
    let (c, loc) := mapOffset 1 (core / 16 * 16) off
    (scratchKey c loc, m) :: granules core (off + m) (n - m) k

/-- The bytes of a raw run of n bytes (R79): their keys in order. `beyond` is the cause of a run that leaves the
cluster's 4 MiB. DESIGN CHOICE (log 103): a run that reaches an absent core part way is 0x14, which the table of R78 does not list, and
its trap's cr.taddr is the run's first address. -/
def State.rawRun (s : State) (ea : Word) (n beyond : Nat) : Except Nat (List (Nat × Nat)) :=
  match s.place ea.toNat s.src.seg rawWindows with
  | .error e => .error e
  | .ok p =>
    let off := if p.win = 1 then ea.toNat % 2 ^ 22 + s.src.seg else clusterOff p.core p.loc
    if 2 ^ 22 < off + n then .error beyond
    else if p.win = 1 then
      let gs := granules p.core off n (n / 64 + 2)
      if gs.all (fun g => s.present (coreOfKey g.1)) then .ok gs else .error 0x14
    else if s.coresPresent p.core off n then .ok [(clusterBase p.core + off, n)]
    else .error 0x14

/-- The acting thread may read every byte of a run now. -/
def State.runReadable (s : State) (r : List (Nat × Nat)) : Bool := r.all (fun p => s.readable p.1 p.2)

/-- The bytes of a run performed at their homes, as a little-endian number, and whether some were uncorrectable. -/
def State.readRun (s : State) (core : Nat) : List (Nat × Nat) → Nat × Bool × State
  | [] => (0, false, s)
  | (k, n) :: r =>
    let (x, b, s) := s.readHome core k n
    let (y, c, s) := s.readRun core r
    (x + 2 ^ (8 * n) * y, b || c, s)

/-- Writes a run. -/
def State.writeRun (s : State) (data mask : Nat) : List (Nat × Nat) → State
  | [] => s
  | (k, n) :: r =>
    (s.writeBytes k n (data % 2 ^ (8 * n)) (mask % 2 ^ (8 * n))).writeRun (data / 2 ^ (8 * n)) (mask / 2 ^ (8 * n)) r

/-! ## Runs through windows 2-10 (R192) -/

/-- The bytes that a run of `count` elements from an offset reads or writes, as offsets and lengths in order: never the rest of a slot
or of a plane block's stride. A write fills the last block of a slot-addressed entry (R190-R192). -/
def Entry.runParts (en : Entry) (plane write : Bool) (off count : Nat) : List (Nat × Nat) :=
  if plane then (List.range (ceilDiv count en.len)).map (fun i => (off + i * en.planeStride, planeBytes en.len en.planes))
  else
    let e := (en.element off).getD 0
    if en.byteAddressed then [(en.codeBit e / 8, count * en.width / 8)]
    else
      (List.range ((e + count - 1) / en.len + 1 - e / en.len)).map (fun i =>
        let b := (e / en.len + i) * en.len
        let lo := max e b
        let hi := if write then b + en.len else min (e + count) (b + en.len)
        let start := if en.sfmt = 0 then en.codeBit lo / 8 else en.scaleByte lo
        (start, ceilDiv (en.codeBit (hi - 1) + en.width) 8 - start))

/-- The transfer start names an element and, where R192 asks it, the first of a block. -/
def Entry.startOk (en : Entry) (plane : Bool) (off : Nat) : Bool :=
  if plane then off % 8 == 0
  else match en.element off with
    | none => false
    | some e => en.sfmt == 0 || e % en.len == 0

/-- A transfer of `count` elements that are read or written through window 2-10, or its cause: the start (0x46), then the extent,
within the cluster (0x46) or, for the array, within the core (0x14) (R79, R192, R214). The entry's 0x31 (R188), which the
table of R78 does not list, comes first of these, in the table's row 9 (log 68). -/
def State.windowRun (s : State) (ea : Word) (count : Nat) (oneCore write : Bool) : Except Nat Run :=
  match s.place ea.toNat s.src.seg elementWindows with
  | .error e => .error e
  | .ok p =>
    let plane := p.win == 2
    let word := vget s.me.win (if plane then p.entry else p.win - 3) 0
    let en := entryOf word
    let off := clusterOff p.core p.loc
    if !en.ok plane then .error 0x31
    else if !en.startOk plane off then .error 0x46
    else
      let parts := en.runParts plane write off count
      let start := (parts.headD (off, 0)).1
      let stop := match parts.getLast? with | some p => p.1 + p.2 | none => off
      if oneCore ∧ (posOf p.core + 1) * 2 ^ 18 < stop then .error 0x14
      else if 2 ^ 22 < stop then .error 0x46
      else if !s.coresPresent p.core start (stop - start) then .error 0x14
      else .ok ⟨parts.map (fun q => (clusterBase p.core + q.1, q.2)), some (word, plane), clusterBase p.core, off, start, count, []⟩

/-- Cuts a list into blocks of n. -/
def blocksOf {α : Type} (n : Nat) (l : List α) : Nat → List (List α)
  | 0 => []
  | k + 1 => if l.isEmpty then [] else l.take n :: blocksOf n (l.drop n) k

/-- A block completed with +0 elements (R192). -/
def padBlock (n : Nat) (l : List Val) : List Val := l ++ List.replicate (n - l.length) (.fin false 0 0 false)

/-- Where a range of a window's run stands from the run's first byte. -/
def Run.offset (r : Run) (key : Nat) : Nat := key - r.base - r.first

/-- The bytes of a window's run, each at its place from the first, from those of its ranges one after another. -/
def Run.expand (r : Run) (x : Nat) : Nat :=
  (r.ranges.foldl (fun acc p => (acc.1 + acc.2 % 2 ^ (8 * p.2) * 2 ^ (8 * r.offset p.1), acc.2 / 2 ^ (8 * p.2))) (0, x)).1

/-- The bytes of a window's run's ranges one after another, from those that stand at their places. -/
def Run.pack (r : Run) (x : Nat) : Nat :=
  (r.ranges.foldl (fun acc p => (acc.1 + x / 2 ^ (8 * r.offset p.1) % 2 ^ (8 * p.2) * 2 ^ (8 * acc.2), acc.2 + p.2)) (0, 0)).1

/-- Encodes values into the bytes of a run through its entry, as data and mask at their places from its first byte (R192). -/
def Run.encodeAt (r : Run) (vs : List Val) : Nat × Nat × FFlags :=
  match r.entry with
  | none => (0, 0, 0)
  | some (word, plane) =>
    let en := entryOf word
    let mode := modeOf en.rm
    let n := (vs.length + en.len - 1) / en.len
    let ds := blocksOf en.len (r.draws ++ List.replicate (n * en.len - r.draws.length) 0) n
    if plane then
      ((blocksOf en.len vs n).zip ds).zipIdx.foldl (fun acc p =>
        let (b, g) := encodePlane en.efmt en.sfmt en.planes mode en.sat p.1.2 (padBlock en.len p.1.1)
        let sh := 8 * (p.2 * en.planeStride)
        (acc.1 + b.toNat en.planes * 2 ^ sh, acc.2.1 + bytesMask (planeBytes en.len en.planes) * 2 ^ sh, acc.2.2 ||| g)) (0, 0, 0)
    else
      let e := (en.element r.start).getD 0
      let put (i c : Nat) (acc : Nat × Nat) : Nat × Nat :=
        let b := en.codeBit (e + i) - 8 * r.first
        (acc.1 + c * 2 ^ b, acc.2 + (2 ^ en.width - 1) * 2 ^ b)
      if en.sfmt = 0 then
        let (cs, g) := roundAll ((fmtOf en.efmt).getD fp32) mode en.sat r.draws vs
        let pad := if en.byteAddressed then 0 else (en.len - (e + cs.length) % en.len) % en.len
        let codes : List Nat := cs ++ List.replicate pad 0
        let (d, m) := codes.zipIdx.foldl (fun acc p => put p.2 p.1 acc) (0, 0)
        (d, m, g)
      else
        ((blocksOf en.len vs n).zip ds).zipIdx.foldl (fun acc p =>
          let (sc, cs, g) := encodeBlock en.efmt en.sfmt mode en.sat p.1.2 (padBlock en.len p.1.1)
          let sh := 8 * (en.scaleByte (e + p.2 * en.len) - r.first)
          let (d, m) := cs.zipIdx.foldl (fun acc q => put (p.2 * en.len + q.2) q.1 acc) (acc.1, acc.2.1)
          (d + sc * 2 ^ sh, m + 255 * 2 ^ sh, acc.2.2 ||| g)) (0, 0, 0)

/-- Encodes values into the bytes of a run's ranges through its entry, as data and mask (R192). -/
def Run.encode (r : Run) (vs : List Val) : Nat × Nat × FFlags :=
  let (d, m, g) := r.encodeAt vs
  (r.pack d, r.pack m, g)

/-- The values of a run's elements, decoded from the bytes of its ranges (R159, R162, R192). -/
def Run.decode (r : Run) (bytes : Nat) : List Val :=
  match r.entry with
  | none => []
  | some (word, plane) =>
    let x := r.expand bytes
    let en := entryOf word
    if plane then
      ((List.range (ceilDiv r.count en.len)).flatMap (fun i =>
        planeVals en.efmt en.sfmt (planeOfNat (x / 2 ^ (8 * (i * en.planeStride)) % 2 ^ (8 * planeBytes en.len en.planes)) en.len en.planes))).take r.count
    else
      let e := (en.element r.start).getD 0
      (List.range r.count).map (fun i =>
        let c := x / 2 ^ (en.codeBit (e + i) - 8 * r.first) % 2 ^ en.width
        let sc := if en.sfmt = 0 then 0 else x / 2 ^ (8 * (en.scaleByte (e + i) - r.first)) % 256
        blockVal en.efmt en.sfmt sc c)

/-- The run as bytes that a later access of its thread waits for. -/
def Run.holds (r : Run) (loads : Bool) : List (Nat × Nat × Bool) := r.ranges.map (fun p => (p.1, p.2, loads))

/-! ## Ranges of global memory -/

/-- Translates n bytes from a global address page by page; the first page that fails gives its cause and lowest
address (R209, R270, R331). -/
def State.translateRange (s : State) (ea n : Nat) (need : Need) : Nat → Except (Nat × Word) (List Access) × State
  | 0 => (.ok [], s)
  | k + 1 =>
    if n = 0 then (.ok [], s)
    else if 2 ^ 56 ≤ ea then (.error (0x11, BitVec.ofNat 64 ea), s)
    else
      match s.translateMe ea need with
      | (.error e, s) => (.error (e, BitVec.ofNat 64 ea), s)
      | (.ok t, s) =>
        if !s.reachable s.curCore (t.keyOf ea) then (.error (0x17, BitVec.ofNat 64 ea), s) else
        let m := min n (4096 - ea % 4096)
        match s.translateRange (ea + m) (n - m) need k with
        | (.error e, s) => (.error e, s)
        | (.ok l, s) =>
          (.ok (⟨t.keyOf ea, m, if bits t.pte 9 8 = 1 then .home else .cached, BitVec.ofNat 64 ea, [t]⟩ :: l), s)

/-- Translates a whole range. -/
def State.translateAll (s : State) (ea n : Nat) (need : Need) : Except (Nat × Word) (List Access) × State :=
  s.translateRange ea n need (n / 4096 + 2)

/-- The sector that an engine read of a line may take bytes from, refilled where its filled bytes have a parity error (R193, R195). DESIGN
CHOICE (log 85): no other engine read fills a sector, which R193 leaves open. -/
def State.engineSector (s : State) (core : Nat) (via : Via) (key : Nat) : Option Sector × State :=
  if via = .cached then
    match (s.cluster (clusterOf core)).sector key with
    | some x =>
      if x.fill && s.parity.contains (clusterOf core, key / 64) then
        let s := ((s.countCorr core 1).countEvent core 1 1).fillSector core key x.trans
        ((s.cluster (clusterOf core)).sector key, s)
      else (some x, s)
    | none => (none, s)
  else (none, s)

/-- An engine read within one line (R193): a masked byte from the sector, a filled byte only of a fill made after
the command issued, any other from its home, whose errors count where its bytes are taken (R122). -/
def State.engineLine (s : State) (core stamp : Nat) (via : Via) (key n : Nat) : Nat × Bool × State :=
  if !s.reachable core key then (0, true, s.countUnc core (wordsOf key n).length)
  else
    match s.engineSector core via key with
    | (none, s) => s.readHome core key n
    | (some x, s) =>
      let all := byteMask (key % 64) n
      let own := if x.fill && decide (stamp ≤ x.filled) then all else x.mask &&& all
      let rest := all &&& ~~~own
      let (line, bad, s) := s.serve core x own
      let home := s.readNat key n * 2 ^ (8 * (key % 64))
      let words := (wordsOfMask rest).map (fun i => s.fwd (key / 64 * 64 + 8 * i) / 8)
      let worse := words.any (fun w => s.bad.contains w)
      (lineBytes (mergeBytes own line (BitVec.ofNat 512 home)) (key % 64) n, bad || worse, s.readWords core words)

/-- An engine read of an access, line by line. -/
def State.engineRead (s : State) (core stamp : Nat) (a : Access) : Nat × Bool × State :=
  (cutLines a.key a.n 0 (a.n / 64 + 2)).foldl (fun acc p =>
    let (x, b, s) := acc.2.2.engineLine core stamp a.via p.1 p.2.1
    (acc.1 + x * 2 ^ (8 * p.2.2), acc.2.1 || b, s)) (0, false, s)

/-- An engine read of a range of accesses. -/
def State.engineReads (s : State) (core stamp : Nat) : List Access → Nat × Bool × State
  | [] => (0, false, s)
  | a :: r =>
    let (x, b, s) := s.engineRead core stamp a
    let (y, c, s) := s.engineReads core stamp r
    (x + 2 ^ (8 * a.n) * y, b || c, s)

/-- Before an engine writes global bytes, the issuing cluster's sectors that hold them are written back and emptied
(R286, R331): true once none is left, with the write-backs started otherwise. -/
def State.clearSectors (s : State) (core key n : Nat) : Bool × State :=
  (cutLines key n 0 (n / 64 + 2)).foldl (fun acc p =>
    let (ok, s) := acc.2.homeFirst core ⟨p.1, p.2.1, .home, 0, []⟩
    (acc.1 && ok, s)) (true, s)

end Sys2Proof.Machine
end

