-- ==== Sys2Proof/Machine/Update.lean ====
section
/-! DEFINITION. Update streams: what accesses wait for at a share, and the stream instructions (16 R224-R229, 17 R232-R245). -/

set_option Elab.async false

namespace Sys2Proof.Machine

open Sys2Proof

/-- An application ends (R239). -/
def execApplicationEnd (sid chan : Nat) (s : State) : Out :=
  match s.region sid with
  | none => .fault .noSuchEvent
  | some r =>
    match r.share chan with
    | none => .fault .noSuchEvent
    | some x => if x.state = .opened ∨ x.state = .closed then .fault .noSuchEvent else .next (s.endApply r x)

/-! ## Steps before an access at its home -/

/-- Performs an access of an item at its home once the issuing cluster's sector has been written back and emptied (R196). Until then
an item that is sent to the home waits for the write-back. -/
def homeStep (s : State) (w : Work) (a : Access) (k : State → Out) : Out :=
  let wait (s : State) : Out := .next (if w.request then s.replaceWork { w with deps := s.writeBacksAt w.core a.key } else s)
  if a.via = .scratch then k s
  else if s.sectorBusy w.core a.key then (if w.request then wait s else .fault .noSuchEvent)
  else
    match s.homeFirst w.core a with
    | (true, s) => k s
    | (false, s) => wait s

/-- The state in which an item has been held at a channel, or one that is held there has started an application at its turn (R228,
R239). -/
def heldStep (s s' : State) (w held : Work) : Out :=
  if w.heldSince.isNone then .next (s'.replaceWork held)
  else if s'.regions = s.regions then .fault .noSuchEvent
  else .next s'

/-- Performs the accesses that an item makes next once the applications they trigger have ended (R228, R240): until then it is held
at the channel. -/
def regionStep (s : State) (w : Work) (k : State → Out) : Out :=
  match s.regionAccess w with
  | (true, s) => k s
  | (false, s') => heldStep s s' w { w with arrived := some s.tick }

/-- The lines that ranges of bytes touch. -/
def linesOf (ranges : List (Nat × Nat)) : List Nat := ranges.flatMap (fun r => (cutLines r.1 r.2 0 (r.2 / 64 + 2)).map (·.1))

/-- Performs an engine's accesses to ranges that it writes once the issuing cluster's sectors of them have been written
back and emptied (R196, R286, R331). -/
def clearSteps (s : State) (core : Nat) (ranges : List (Nat × Nat)) (k : State → Out) : Out :=
  if (linesOf ranges).any (s.sectorBusy core) then .fault .noSuchEvent
  else
    let (ok, s) := ranges.foldl (fun acc r =>
      let (b, s) := acc.2.clearSectors core r.1 r.2
      (acc.1 && b, s)) (true, s)
    if ok then k s else .next s

/-- Performs an engine's reads once no write-back of a sector they touch is on its way from the issuing cluster, and those at their
homes as an access there (R126, R196, R211, R286). -/
def sourceSteps (s : State) (core : Nat) (accs : List (Nat × Nat × Via)) (k : State → Out) : Out :=
  let all := (accs.filter (fun a => a.2.2 != .scratch)).map (fun a => (a.1, a.2.1))
  if (linesOf all).any (s.sectorBusy core) then .fault .noSuchEvent
  else clearSteps s core ((accs.filter (fun a => a.2.2 == .home)).map (fun a => (a.1, a.2.1))) k

/-- Both, for an access of an item. -/
def atHome (s : State) (w : Work) (a : Access) (k : State → Out) : Out := homeStep s w a fun s => regionStep s w k

/-- An access as a source of an engine's read. -/
def Access.piece (a : Access) : Nat × Nat × Via := (a.key, a.n, a.via)

/-! ## Reading an access at once (R73) -/

/-- What a read at issue must have done first, for an access that is performed at its home: the sector's write-back (R196). -/
def State.beforeRead (s : State) (a : Access) : Bool × State :=
  if a.via = .scratch then (true, s)
  else if s.fromCache a then (!s.fillWaits s.curCore s.curSlot a, s)
  else s.homeFirst s.curCore { a with via := .home }

/-- A read at issue would pass what its core has sent to the home that it reads, before that has been performed there (R247, R289). -/
def State.readPasses (s : State) (a : Access) : Bool :=
  a.via != .scratch && !(s.fromCache a && s.sectorServes s.curCore s.curSlot a) && s.homeBusy s.curCore a.key

/-- Reads an access of the acting thread at once, as its load would (R73); none while it must wait, behind what is held at a channel
(R239) or on its way to the home too. An error is the reading command's own: it is taken after it (R122). -/
def State.readNow (s : State) (a : Access) : Option (Nat × State) :=
  let range := if a.via = .scratch then [] else [(a.key, a.n)]
  if !s.readable a.key a.n || !s.readTurn range || s.readPasses a || !(s.beforeRead a).1 then none
  else
    let s := (s.beforeRead a).2.applyNow range
    let (x, bad, s) := s.loadPart s.curCore s.curSlot (s.accessHome s.curCore a) a
    some (x, if bad ∧ s.etrap s.curCore then s.setThread { s.thread with errTrap := s.thread.errTrap.orElse fun _ => some (a.ea, s.pc, true) } else s)

/-- The instruction waits to read an access: what must be done first has begun. -/
def State.parkForRead (s : State) (a : Access) : State := (if s.readable a.key a.n && !s.readPasses a then (s.beforeRead a).2 else s).park

/-! ## Arrivals at a channel -/

/-- Counts a pair dropped at the core that emitted it (R122, R239). -/
def State.countDropP (s : State) (core : Nat) : State :=
  let c := s.core core
  s.setCore core { c with dropp := satAdd c.dropp 1 }

/-- Accepts a pair into the bin or the log, or begins the application that a full log asks for (R226, R237). The
answer says whether it was accepted. -/
def State.acceptPair (s : State) (r : Region) (x : Share) (t : Tensor) (elem : Nat) (val : Lane) (src seq : Nat) : Bool × State :=
  let f := (fmtOf t.desc.fmt).getD fp32
  let mine := x.bins.find? (fun e => e.elem == elem)
  match r.desc.ordered, mine with
  | false, some e =>
    let (c, g) := r.desc.phrase.combine f (decode f e.val.toNat) (f32 val)
    let x := { x with accepted := x.accepted + 1,
                      bins := x.bins.map (fun y => if y.elem = elem then { y with val := BitVec.ofNat 32 c, pairs := y.pairs + 1 } else y) }
    (true, (s.setRegion (r.setShare x)).stick t.handle g)
  | _, _ =>
    if x.bins.length < r.desc.quota then
      let (v, g) : Lane × FFlags := if r.desc.ordered then (val, 0) else
        let (c, g) := round f .rne false 0 (f32 val)
        (BitVec.ofNat 32 c, g)
      let x := { x with accepted := x.accepted + 1, bins := x.bins ++ [⟨elem, v, src, seq, 1, false, false⟩],
                        since := if x.pending then x.since else s.tick }
      (true, (s.setRegion (r.setShare x)).stick t.handle g)
    else if x.log + 1 < x.recCount then
      let s := s.writeBytes (r.recordKey (x.recFirst + x.log)) 16 (recordBytes r elem val src seq) (bytesMask 16)
      (true, s.setRegion (r.setShare { x with accepted := x.accepted + 1, spilled := x.spilled + 1, log := x.log + 1 }))
    else (false, s.startApply r x .applying [] true)

/-- The item is held at its channel from now on, in arrival order (R239). -/
def State.holdAt (s : State) (w : Work) : Out :=
  if w.arrived.isSome then .fault .noSuchEvent else .next (s.replaceWork { w with arrived := some s.tick })

/-- A pair arrives at its channel, or its turn comes among what is held there (R226, R237, R239, R244). -/
def execPairArrival (k : Nat) (s : State) : Out :=
  s.begin k fun w s =>
    match w.body with
    | .pair sid chan elem val src seq =>
      let drop := .next ((s.dropWork k).countDropP w.core)
      if w.link = .corrupt then drop
      else
        match s.region sid with
        | none => drop
        | some r =>
          match r.share chan, s.tensor r.desc.handle with
          | some x, some t =>
            if x.state = .closed ∨ x.state = .closing then drop
            else if x.state = .applying || s.ahead w r x then s.holdAt w
            else
              match s.acceptPair r x t elem val src seq with
              | (true, s) => .next (s.dropWork k)
              | (false, s) => .next (if w.arrived.isSome then s else s.replaceWork { w with arrived := some s.tick })
          | _, _ => drop
    | _ => .fault .noSuchEvent

/-- A result that every item of a group has sent: the last of them becomes it. -/
def State.lastOf (s : State) (w : Work) (others : Bool) (dst : Dst) (x : Nat) : State :=
  if others then s.dropWork w.id else s.toRet w dst (BitVec.ofNat 512 x) none 0

/-- A flush arrives at a channel, behind what is held there (R241): it begins an application, or completes at once with no pair
pending. -/
def execFlushArrival (k : Nat) (s : State) : Out :=
  s.begin k fun w s =>
    match w.body with
    | .flush sid chan num dst =>
      let others := s.work.any (fun x => x.id != k && (match x.body with | .flush i _ n _ => i == sid && n == num | _ => false))
      let taken (s : State) : Out := .next (s.lastOf w others dst num)
      match s.region sid with
      | none => taken s
      | some r =>
        match r.share chan with
        | none => taken s
        | some x =>
          if x.state = .closed then taken s
          else if x.state != .opened || s.ahead w r x then s.holdAt w
          else if x.pending then taken (s.startApply r x .applying [num] false)
          else taken (s.setRegion (r.setShare (x.flushesDone [num])))
    | _ => .fault .noSuchEvent

/-- A close arrives at a channel, behind what is held there, and makes it apply for the last time (R242); the item leaves when that
ends. -/
def execCloseArrival (k : Nat) (s : State) : Out :=
  s.begin k fun w s =>
    match w.body with
    | .close sid chan =>
      match s.region sid with
      | none => .next (s.dropWork k)
      | some r =>
        match r.share chan with
        | none => .next (s.dropWork k)
        | some x =>
          if x.state = .closed then .next (s.dropWork k)
          else if x.state != .opened || s.ahead w r x then s.holdAt w
          else .next ((s.replaceWork { w with arrived := some (w.arrived.getD s.tick) }).startApply r x .closing [] false)
    | _ => .fault .noSuchEvent

/-- The count of a selector at one channel (R229, R243). -/
def Share.count (x : Share) (sel : Nat) : Nat :=
  match sel with
  | 0 => x.accepted
  | 1 => x.spilled
  | 2 => x.applications
  | 3 => (x.bins.map (·.pairs)).foldl (· + ·) x.log
  | 4 => x.lost
  | _ => 1

/-- A query arrives at a channel; the last of its group returns the sum (R243). -/
def State.performQuery (s : State) (w : Work) (sid chan sel group acc : Nat) (dst : Dst) : State :=
  let n := acc + (match s.region sid with
    | some r => (match r.share chan with | some x => x.count sel | none => 0)
    | none => 0)
  let same (x : Work) : Bool := x.id != w.id && (match x.body with | .upQuery _ _ _ g _ _ => g == group | _ => false)
  match s.work.find? same with
  | some y =>
    match y.body with
    | .upQuery a b c d m e => (s.dropWork w.id).replaceWork { y with body := .upQuery a b c d (m + n) e }
    | _ => s
  | none => s.toRet w dst (BitVec.ofNat 512 n) none 0

/-! ## The instructions (R235) -/

/-- The home number of a channel. -/
def channelHome (c : Nat) : Nat := 0x20000 + c

/-- Sends pairs, numbered in the core's sequence to the region (R236). -/
def State.sendPairs (s : State) (sid : Nat) (t : Tensor) (seq : Nat) : List (Nat × Lane) → State
  | [] => s
  | (e, v) :: r =>
    let c := t.channel e
    ((s.countEvent s.curCore 4 1).send (channelHome c) [] false (.pair sid c e v (s.curCore % 2048) seq)).sendPairs sid t (seq + 1) r

/-- Items of a core on their way to a channel. -/
def State.sentTo (s : State) (core chan : Nat) : Nat :=
  (s.work.filter (fun w => w.core == core && w.home == channelHome chan && w.arrived.isNone)).length

/-- A channel holds emitters to it back while it applies any region's full log, or the core's path to it has no buffer (R226, R236,
log 73). -/
def State.emitterWaits (s : State) (chan : Nat) : Bool :=
  s.regions.any (fun r => (r.share chan).any (fun x => x.full && x.state == .applying)) ||
    decide (s.bufCap ≤ s.sentTo s.curCore chan)

/-- An emit of n pairs: the region, the key word and the sequence are checked, and it parks only while a channel
holds emitters back (R235, R236). -/
def emitPairs (s0 s : State) (sid key : Word) (resv n : Nat) (vals : List Lane) : Out :=
  match s.regionFor s.curCore sid.toNat with
  | none => .next (s0.trap 0x58 sid)
  | some r =>
    match s.tensor r.desc.handle with
    | none => .next (s0.trap 0x58 sid)
    | some t =>
      let first := key.toNat % 2 ^ 48
      let seq := sget s.me.emitSeq sid.toNat 0
      if resv ≠ 0 ∨ first < r.desc.first ∨ r.desc.first + r.desc.count < first + n ∨ 2 ^ 32 < seq + n then
        .next (s0.trap 0x59 key)
      else
        let keys := (List.range n).map (fun i => first + i)
        if keys.any (fun e => s.emitterWaits (t.channel e)) then .next s0.park
        else
          let s := s.setMe { s.me with emitSeq := sset s.me.emitSeq sid.toNat (seq + n) }
          .next (s.sendPairs sid.toNat t seq (keys.zip vals)).complete

/-- up.emit (R235, R236). -/
def execUpEmit (a b c : Opd) (s : State) : Out :=
  withOperands [⟨.scalar, .src, a⟩, ⟨.scalar, .src, b⟩, ⟨.scalar, .src, c⟩] s fun s0 =>
    let (sid, s) := s0.readS a
    let (key, s) := s.readS b
    let (v, s) := s.readS c
    emitPairs s0 s sid key (bits key.toNat 63 48) 1 [v.setWidth 32]

/-- up.emitv (R235, R236). -/
def execUpEmitv (a b c : Opd) (s : State) : Out :=
  withOperands [⟨.scalar, .src, a⟩, ⟨.scalar, .src, b⟩, ⟨.vector, .src, c⟩] s fun s0 =>
    let (sid, s) := s0.readS a
    let (key, s) := s.readS b
    let (v, s) := s.readV c
    emitPairs s0 s sid key (bits key.toNat 63 52) (bits key.toNat 51 48 + 1) (Sys2Proof.lanes v)

/-- up.flush: sent to every channel behind the core's earlier pairs (R241). -/
def execUpFlush (a b : Opd) (s : State) : Out :=
  withOperands [⟨.scalar, .dst, a⟩, ⟨.scalar, .src, b⟩] s fun s0 =>
    let (sid, s) := s0.readS b
    match s.regionFor s.curCore sid.toNat with
    | none => .next (s0.trap 0x58 sid)
    | some r =>
      let n := r.flushes + 1
      let (d, s) := (s.setRegion { r with flushes := n }).dstS a
      .next (r.shares.foldl (fun s x => s.send (channelHome x.chan) [] false (.flush r.sid x.chan n d)) s).complete

/-- up.close: parks until every channel has applied and closed (R242). -/
def execUpClose (a : Opd) (s : State) : Out :=
  match s.thread.pend with
  | .wait _ ids => if s.gone ids then .next s.complete else .next s.park
  | _ =>
    withOperands [⟨.scalar, .src, a⟩] s fun s0 =>
      let (sid, s) := s0.readS a
      match s.regionFor s.curCore sid.toNat with
      | none => .next (s0.trap 0x58 sid)
      | some r =>
        let ids := (List.range r.shares.length).map (fun i => s.nextId + i)
        let s := r.shares.foldl (fun s x => s.send (channelHome x.chan) [] false (.close r.sid x.chan)) s
        .next (s.parkWith (.wait 91 ids))

/-- up.st: a count summed over the region's channels, triggering no application (R229, R243). -/
def execUpSt (a b : Opd) (which : BitVec 6) (s : State) : Out :=
  withOperands [⟨.scalar, .dst, a⟩, ⟨.scalar, .src, b⟩] s fun s0 =>
    let (sid, s) := s0.readS b
    match s.regionFor s.curCore sid.toNat with
    | none => .next (s0.trap 0x58 sid)
    | some r =>
      let (d, s) := s.dstS a
      let group := s.nextId
      .next (r.shares.foldl (fun s x =>
        s.send (channelHome x.chan) [] false (.upQuery r.sid x.chan which.toNat group 0 d)) s).complete

end Sys2Proof.Machine
end

