-- ==== Sys2Proof/Machine/ArrayUnit.lean ====
section
/-! DEFINITION. The matrix array: its lease, its configuration, its operand blocks, its product and the completion
of its commands (11 R163, 14 R199-R214). -/

set_option Elab.async false

namespace Sys2Proof.Machine

open Sys2Proof

/-! ## Configuration (R203) -/

/-- A tile configuration block's fields. -/
structure TileCfg where
  rows : Nat
  cols : Nat
  k : Nat
  fa : Nat
  fb : Nat
  pa : Nat
  pb : Nat
  la : Nat
  lb : Nat
  sa : Nat
  sb : Nat
  spn : Nat
deriving DecidableEq, Repr

/-- Element formats an operand may have (R203). -/
def arrayFormat (f : Nat) : Bool := (naturalPlanes f).isSome

/-- A tile configuration block that breaks no limit (R203). -/
def cfgOf (b : VWord) : Option TileCfg :=
  let x := b.toNat
  let c : TileCfg := ⟨byteField x 1 0, byteField x 3 2, byteField x 5 4, byteField x 6 6, byteField x 7 7, byteField x 8 8,
    byteField x 9 9, byteField x 10 10, byteField x 11 11, byteField x 12 12, byteField x 13 13, byteField x 14 14⟩
  let side (n : Nat) : Bool := decide (16 ≤ n ∧ n ≤ 128) && n % 16 == 0
  let planes (n : Nat) : Bool := decide (2 ≤ n ∧ n ≤ 16)
  let len (n : Nat) : Bool := n == 16 || n == 32
  let scale (n : Nat) : Bool := n == 0 || n == 0x11 || n == 0x12
  if side c.rows && side c.cols && decide (16 ≤ c.k ∧ c.k ≤ 4096) && len c.la && len c.lb && c.k % max c.la c.lb == 0 &&
      arrayFormat c.fa && arrayFormat c.fb && planes c.pa && planes c.pb && scale c.sa && scale c.sb &&
      (c.spn == 0 || ((c.spn == 4 || c.spn == 8 || c.spn == 16) && c.lb == 32)) && byteField x 63 15 == 0
  then some c else none

/-- The configuration in force as fields. -/
def Array_.tileCfg (a : Array_) : Option TileCfg := a.cfg.bind cfgOf

/-! ## Block sequences (R206) -/

/-- The bytes of one dense block, and of one sparse block. -/
def denseBytes (l p : Nat) : Nat := planeBytes l p
/-- The bytes of a sparse block. -/
def sparseBytes (n p : Nat) : Nat := 8 + ceilDiv (p * n) 8

/-- The stride of a sequence whose blocks have the given size. -/
def blockStride (size : Nat) : Nat := 8 * ceilDiv size 8

/-- Size of a block and number of blocks of the A operand and of the B operand. -/
def TileCfg.shapeA (c : TileCfg) : Nat × Nat := (denseBytes c.la c.pa, c.rows * (c.k / c.la))
/-- The same of B, dense or sparse. -/
def TileCfg.shapeB (c : TileCfg) : Nat × Nat :=
  (if c.spn = 0 then denseBytes c.lb c.pb else sparseBytes c.spn c.pb, c.cols * (c.k / c.lb))

/-- The extent of a sequence from its first byte to its last. -/
def seqBytes (shape : Nat × Nat) : Nat := (shape.2 - 1) * blockStride shape.1 + shape.1

/-- The integers of a sparse block: a set bit of PMASK takes the next stream column, up to the Nth (R206). -/
def sparseInts (stream pmask n p : Nat) : Nat → Nat → Nat → List Int
  | _, _, 0 => []
  | k, col, fuel + 1 =>
    if pmask.testBit k then
      (if col < n then planeInt stream n p col else 0) :: sparseInts stream pmask n p (k + 1) (col + 1) fuel
    else 0 :: sparseInts stream pmask n p (k + 1) col fuel

/-- A sparse block read from its bytes. -/
def sparseOfNat (x n p : Nat) : PlaneBlock :=
  let pm := bits x 63 32
  ⟨bits x 7 0, bits x 15 8, bits x 23 16, pm, sparseInts (x / 2 ^ 64) pm n p 0 0 32⟩

/-- The blocks of a sequence's bytes, as numbers. -/
def seqBlocks (shape : Nat × Nat) (x : Nat) : List Nat :=
  (List.range shape.2).map (fun i => x / 2 ^ (8 * (i * blockStride shape.1)) % 2 ^ (8 * shape.1))

/-! ## The product (R163, R208) -/

/-- One unit's result: the two blocks, the unit's place in each, and its length. -/
def unitResult (c : TileCfg) (a b : PlaneBlock) (oa ob n : Nat) : Lane × FFlags :=
  match scaleVal c.sa a.scale, scaleVal c.sb b.scale with
  | some (ma, ea), some (mb, eb) =>
    if a.flags ≠ 0 ∨ b.flags ≠ 0 then (0x7FC00000, fNV)
    else if ma = 0 ∨ mb = 0 then (0, 0)
    else
      let d := (((a.ints.drop oa).take n).zip ((b.ints.drop ob).take n)).foldl (fun (s : Int) p => s + p.1 * p.2) 0
      let e : Int := a.shift + b.shift + gridExp c.fa + gridExp c.fb + factorExp c.fa c.sa + factorExp c.fb c.sb + ea + eb
      let (x, g) := round fp32 .rne false 0 (ofSigned (d * ma * mb) e false)
      (BitVec.ofNat 32 x, g)
  | _, _ => (0x7FC00000, fNV)

/-- Accumulates every unit of one row of A and one column of B. -/
def accumulate (c : TileCfg) (row col : List PlaneBlock) (acc : Lane) : Lane × FFlags :=
  let n := min c.la c.lb
  (List.range (c.k / n)).foldl (fun st u =>
    match row[u * n / c.la]?, col[u * n / c.lb]? with
    | some a, some b =>
      let (x, g) := unitResult c a b (u * n % c.la) (u * n % c.lb) n
      let (y, h) := addV .rne (f32 st.1) (f32 x)
      let (z, i) := round fp32 .rne false 0 y
      (BitVec.ofNat 32 z, st.2 ||| g ||| h ||| i)
    | _, _ => st) (acc, 0)

/-- The product of whole operands into a tile of sparse elements. -/
def product (c : TileCfg) (a b : List PlaneBlock) (tile : List (Nat × Lane)) : List (Nat × Lane) × FFlags :=
  let na := c.k / c.la
  let nb := c.k / c.lb
  (List.range (c.rows * c.cols)).foldl (fun st n =>
    let (x, g) := accumulate c ((a.drop (n / c.cols * na)).take na) ((b.drop (n % c.cols * nb)).take nb) (sget tile n 0)
    (if x = 0 then st.1 else (n, x) :: st.1, st.2 ||| g)) ([], 0)

/-- Encodes the elements of a view operand, row by row or column by column, into plane-form blocks (R207). -/
def encodeOperand (efmt sfmt l p k : Nat) (vs : List Val) : List Nat × FFlags :=
  let lines := blocksOf k vs (vs.length / k + 1)
  (lines.flatMap (fun r => blocksOf l r (k / l + 1))).foldl (fun st b =>
    let (x, g) := encodePlane efmt sfmt p .rne true [] b
    (st.1 ++ [x.toNat p], st.2 ||| g)) ([], 0)

/-! ## The lease (R200-R202) -/

/-- The array of a core's cluster. -/
def State.array (s : State) (core : Nat) : Array_ := (s.cluster (clusterOf core)).array

/-- Replaces it. -/
def State.setArray (s : State) (core : Nat) (a : Array_) : State :=
  s.setCluster (clusterOf core) { s.cluster (clusterOf core) with array := a }

/-- The thread holds the lease of its cluster's array. -/
def State.holdsLease (s : State) (core slot : Nat) : Bool := (s.array core).holder == some (core, slot)

/-- Grants the array to a thread (R202). DESIGN CHOICE (log 110): its idle count starts from 0 at the grant; R202 sets it to 0 only
when a command is accepted. -/
def State.grantLease (s : State) (core slot : Nat) : State :=
  let a := s.array core
  let s := s.setArray core { a with holder := some (core, slot), used := 0, idle := 0, prev := some core,
                                    waiting := a.waiting.filter (· != (core, slot)) }
  s.setThreadAt core slot { s.threadAt core slot with mxLast := 0, mxRevoked := false }

/-- The requester the array takes next: the first core with a request, from the position after the previous
holder's, and its slot that asked first (R200). -/
def Array_.nextHolder (a : Array_) : Option (Nat × Nat) :=
  let start := match a.prev with | some c => posOf c + 1 | none => 0
  ((List.range 16).map (fun i => (start + i) % 16)).findSome? (fun p => a.waiting.find? (fun w => posOf w.1 == p))

/-- The free array takes its next holder from its waiting requesters (R200). -/
def execLeaseGrant (cluster : Nat) (s : State) : Out :=
  let a := (s.cluster cluster).array
  match a.holder, a.nextHolder with
  | none, some (c, t) => .next (s.grantLease c t)
  | _, _ => .fault .noSuchEvent

/-- Every array command a thread has issued has completed, one that its view operand's controller has yet to
position among them (R202, R207). -/
def State.arrayIdle (s : State) (core slot : Nat) : Bool :=
  !s.work.any (fun w => w.of core slot &&
    (match w.body with | .mx .. | .handle (.operand ..) _ => true | _ => false))

/-- One array cycle of the lease watchdog (R202). -/
def Array_.tick (a : Array_) (s : State) : Array_ :=
  match a.holder with
  | none => a
  | some (c, t) =>
    let h := s.threadAt c t
    if !s.arrayIdle c t || h.hm || h.slot == .stopped then a else { a with idle := a.idle + 1 }

/-- The watchdog revokes the lease when its count reaches the limit (R202). -/
def execLeaseWatchdogExpiry (cluster : Nat) (s : State) : Out :=
  let a := (s.cluster cluster).array
  match a.holder with
  | some (c, t) =>
    if a.limit ≠ 0 ∧ a.limit.toNat ≤ a.idle then
      let s := s.setCluster cluster { s.cluster cluster with array := { a with holder := none, idle := 0 } }
      .next (s.setThreadAt c t { s.threadAt c t with mxRevoked := true })
    else .fault .noSuchEvent
  | none => .fault .noSuchEvent

/-! ## Acceptance and completion (R204, R211, R212) -/

/-- The home number of a cluster's array. -/
def arrayHome (cluster : Nat) : Nat := 0x62000 + cluster

/-- The item reads or writes bytes of the given range. -/
def Work.touches (w : Work) (key n : Nat) : Bool :=
  w.writes key n ||
  match w.body with
  | .load parts .. => parts.any (fun a => decide (a.key < key + n) && decide (key < a.key + a.n))
  | _ => w.holdsBytes key n true

/-- The item is an access of a bank command's thread to the bank, issued before the command and not performed: the command comes after it
(R223). A full/empty access that waits at the bank has entered it. -/
def Work.beforeCommand (x w : Work) : Bool :=
  match w.body with
  | .bank _ d .. => x.issuedBefore w && x.request && x.arrived.isNone && x.touches (d / 2 ^ 14 * 2 ^ 14) (2 ^ 14)
  | _ => false

/-- The acting thread's earlier items whose accesses to bytes of a range must come first (R126): its writes, and, for
bytes that a command is to write, its reads. -/
def State.earlier (s : State) (ranges : List (Nat × Nat)) (writes : Bool) : List Nat :=
  (s.work.filter (fun w => w.of s.curCore s.curSlot && ranges.any (fun r =>
    if writes then w.touches r.1 r.2 else w.writes r.1 r.2 || w.holdsBytes r.1 r.2 false))).map (·.id)

/-- Ranges that a later access waits for, as ranges alone. -/
def holdRanges (h : List (Nat × Nat × Bool)) : List (Nat × Nat) := h.map (fun p => (p.1, p.2.1))

/-- The array accepts a command of the acting thread: it takes the next timeline number and counts toward the 32 of
its lease (R201, R212). -/
def State.acceptMx (s : State) (cmd : MxCmd) (holds : List (Nat × Nat × Bool)) : State :=
  let a := s.array s.curCore
  let n := a.accepted + 1
  let writes := match cmd with | .st .. => true | _ => false
  let w : Work := { s.item (arrayHome (clusterOf s.curCore)) (s.earlier (holdRanges holds) writes) false
                      (.mx (clusterOf s.curCore) n cmd) with holds := holds }
  let s := s.addWork w
  let used := a.used + 1
  let next := match cmd with | .cfg b => some b | _ => a.nextCfg
  let holder := if 32 ≤ used then none else a.holder
  let s := s.setArray s.curCore { a with accepted := n, used := used, idle := 0, holder := holder, nextCfg := next }
  s.setThread { s.thread with mxLast := n }

/-- The blocks of an operand, from memory as an engine read, or as they were encoded. -/
def State.mxBlocks (s : State) (w : Work) (shape : Nat × Nat) : MxSrc → List Nat × State
  | .view b => (b.getD [], s)
  | .memory accs =>
    let s := accs.foldl (fun s a => s.touchRange a.key a.n) s
    let (x, _, s) := s.engineReads w.core w.stamp accs
    (seqBlocks shape x, s)

/-- The effect of an array command on a configured array: the tile and flags it leaves, and the issuing thread's
flags (R208, R214). -/
def State.performMx (s : State) (w : Work) (c : TileCfg) (cmd : MxCmd) : State :=
  let put (s : State) (t : Nat) (x : List (Nat × Lane)) (g : FFlags) : State :=
    let a := s.array w.core
    s.setArray w.core { a with tiles := vset a.tiles t x, flags := vset a.flags t g }
  let owe (s : State) (g : FFlags) : State := s.setThreadAt w.core w.slot ((s.threadAt w.core w.slot).addFlags g)
  let a := s.array w.core
  match cmd with
  | .cfg _ => s
  | .zero t => put s t [] 0
  | .mma sparse x y g t =>
    let (bx, s) := s.mxBlocks w c.shapeA x
    let (bY, s) := s.mxBlocks w c.shapeB y
    let pa := bx.map (fun n => planeOfNat n c.la c.pa)
    let pb := bY.map (fun n => if sparse then sparseOfNat n c.spn c.pb else planeOfNat n c.lb c.pb)
    let (tile, h) := product c pa pb (vget a.tiles t [])
    put s t tile (vget a.flags t 0 ||| g ||| h)
  | .ld run t =>
    let (x, _, s) := s.readRun w.core run.ranges
    let (cs, g) := roundAll fp32 .rne false [] (run.decode x)
    let tile := (cs.zipIdx.filter (fun p => p.1 != 0)).map (fun p => (p.2, (BitVec.ofNat 32 p.1 : Lane)))
    owe (put s t tile 0) g
  | .st run t =>
    let vs := (List.range (c.rows * c.cols)).map (fun n => f32 (sget (vget a.tiles t []) n 0))
    let (d, m, g) := run.encode vs
    owe (s.writeRun d m run.ranges) (g ||| vget a.flags t 0)

/-- The bytes of memory that a command's operands are. -/
def MxCmd.memory : MxCmd → List Access
  | .mma _ a b _ _ => (match a with | .memory l => l | .view _ => []) ++ (match b with | .memory l => l | .view _ => [])
  | _ => []

/-- The bytes that a command reads or writes, as ranges. -/
def MxCmd.ranges (c : MxCmd) : List (Nat × Nat) :=
  match c with
  | .ld run _ | .st run _ => run.ranges
  | c => c.memory.map (fun a => (a.key, a.n))

/-- The view operands of a command have been encoded (R207). -/
def MxCmd.fetched : MxCmd → Bool
  | .mma _ a b .. =>
    (match a with | .view none => false | _ => true) && (match b with | .view none => false | _ => true)
  | _ => true

/-- The array's next command takes effect, in the order of acceptance, and the timeline counts it (R211, R212). A
configuration that differs from the one in force clears every tile (R204). -/
def execArrayCommandCompletion (k : Nat) (s : State) : Out :=
  s.begin k fun w s =>
    match w.body with
    | .mx cl n cmd =>
      let a := (s.cluster cl).array
      if n ≠ a.done + 1 ∨ !cmd.fetched ∨ s.holdsRanges w cmd.ranges then .fault .noSuchEvent
      else sourceSteps s w.core (cmd.memory.map Access.piece) fun s => regionStep s w fun s =>
        let s := match cmd with
          | .cfg b =>
            if a.cfg = some b then s
            else
              let a := { a with cfg := some b, tiles := Vector.replicate 4 [], flags := Vector.replicate 4 0 }
              s.setCluster cl { s.cluster cl with array := a }
          | cmd => match a.tileCfg with
            | some c => s.performMx w c cmd
            | none => s
        let s := s.dropWork k
        .next (s.setCluster cl { s.cluster cl with array := { (s.cluster cl).array with done := n } })
    | _ => .fault .noSuchEvent

end Sys2Proof.Machine
end

