-- ==== Sys2Proof/Machine/Handles.lean ====
section
/-! DEFINITION. Handle commands at the inflection controllers: their positions, their refusals and their effects
(01 R12-R16, 04 R56-R60, 05 R67-R74, 06 R77-R92). -/

set_option Elab.async false

namespace Sys2Proof.Machine

open Sys2Proof

/-- The home number of a die's inflection controller. -/
def controllerHome (die : Nat) : Nat := 0x61000 + die

/-! ## What a command names, needs and touches -/

/-- A window entry's format differs from a tensor's (R79). -/
def convertBit (entry : Option (Word × Bool)) (fmt : Nat) : Nat :=
  match entry with
  | none => 0
  | some (w, _) =>
    let en := entryOf w
    let same := match familyOf fmt with
      | none => en.efmt == fmt && en.sfmt == 0
      | some f => en.efmt == f.elem && en.sfmt == f.scale && en.len == f.len
    if same then 0 else 0x1000

/-- The format of a handle's tensor. -/
def State.fmtOfHandle (s : State) (h : Nat) : Nat := match s.tensor h with | some t => t.desc.fmt | none => 0

/-- The operation bits a command needs, handle by handle (R77, R207, R224, R284). -/
def State.needs (s : State) : HandleCmd → List (Nat × Nat)
  | .new _ | .free _ | .q .. | .widen .. => []
  | .ld v run => [(v.handle, 0x0002 ||| v.transposeBit ||| convertBit run.entry (s.fmtOfHandle v.handle))]
  | .st v run _ => [(v.handle, 0x0004 ||| v.transposeBit ||| convertBit run.entry (s.fmtOfHandle v.handle))]
  | .gat h _ run => [(h, 0x0008 ||| convertBit run.entry (s.fmtOfHandle h))]
  | .phr h p a b => ((HandleCmd.phr h p a b).handles).map (fun x => (x, 0x0001))
  | .cpT a b _ =>
    let conv := if s.fmtOfHandle a.handle = s.fmtOfHandle b.handle then 0 else 0x1000
    [(a.handle, 0x0002 ||| a.transposeBit ||| conv), (b.handle, 0x0004 ||| b.transposeBit)]
  | .upOpen d => [(d.handle, 0x0010)]
  | .operand a b .. =>
    (match a with | some v => [(v.handle, 0x0020 ||| v.transposeBit)] | none => []) ++
    (match b with | some v => [(v.handle, 0x0040 ||| v.transposeBit)] | none => [])

/-- Every bit that needs ask of one handle. -/
def needOn (l : List (Nat × Nat)) (h : Nat) : Nat := (l.map (fun p => if p.1 = h then p.2 else 0)).foldl (· ||| ·) 0

/-! ## Elements on their way -/

/-- An element read: its code, its block's scale code, none for a fill, and its value. -/
abbrev ElemRead := Nat × Option Nat × Val

/-- Element i of a tensor. -/
def State.readElem (s : State) (t : Tensor) (i : Nat) : ElemRead :=
  let c := s.elem t i
  (c.1, some c.2, elemVal t.desc.fmt c)

/-- ElemOf at a position of a view; a CONST fill is the fill code in the element format, unscaled (R57). -/
def State.elemOf (s : State) (t : Tensor) (v : View) (n : Nat) : ElemRead :=
  match v.reads t.desc.dims n with
  | some i => s.readElem t i
  | none => (v.fillc, none, decode ((fmtOf (elemCode t.desc.fmt)).getD fp32) v.fillc)

/-- Bytes of n elements as a raw run holds them: whole blocks of a block-scaled format (R61, R79, R154). -/
def rawBytes (fmt n : Nat) : Nat :=
  let w := widthOf fmt
  match familyOf fmt with
  | none => ceilDiv (n * w) 8
  | some f => ceilDiv n f.len * (1 + f.len * w / 8)

/-- Elements as the bytes of a raw run, with the bits they write: their own codes, a block's under the one scale they
share, or encoded anew where they share none (R79, log 12); the last block is padded with +0 codes (R154). -/
def rawEncode (fmt : Nat) (xs : List ElemRead) : Nat × Nat × FFlags :=
  let w := widthOf fmt
  match familyOf fmt with
  | none => (packCodes w (xs.map (·.1)), 2 ^ (w * xs.length) - 1, 0)
  | some f =>
    (blocksOf f.len xs (xs.length / f.len + 1)).zipIdx.foldl (fun acc p =>
      let ys := p.1
      let sc := (ys.map (·.2.1)).headD none
      let (c, cs, g) : Nat × List Nat × FFlags := match sc with
        | some x => if ys.all (fun y => y.2.1 == sc) then (x, ys.map (·.1), 0)
          else encodeBlock f.elem f.scale .rne false [] (padBlock f.len (ys.map (·.2.2)))
        | none => encodeBlock f.elem f.scale .rne false [] (padBlock f.len (ys.map (·.2.2)))
      let sh := 8 * (p.2 * (1 + f.len * w / 8))
      (acc.1 + (c + packCodes w (cs.take ys.length) * 256) * 2 ^ sh, acc.2.1 + (255 + (2 ^ (w * f.len) - 1) * 256) * 2 ^ sh,
        acc.2.2 ||| g)) (0, 0, 0)

/-- The codes of n elements with their scale codes, read from a raw run. -/
def rawDecode (fmt x n : Nat) : List (Nat × Nat) :=
  let w := widthOf fmt
  match familyOf fmt with
  | none => (unpackCodes w x n).map (fun c => (c, 0))
  | some f =>
    (List.range n).map (fun i =>
      let b := x / 2 ^ (8 * (i / f.len * (1 + f.len * w / 8)))
      (b / 2 ^ (8 + i % f.len * w) % 2 ^ w, b % 256))

/-- Elements written to a run: data, mask and flags (R79). -/
def Run.put (r : Run) (fmt : Nat) (xs : List ElemRead) : Nat × Nat × FFlags :=
  if r.entry.isSome then r.encode (xs.map (·.2.2)) else rawEncode fmt xs

/-- Adds dropped elements to cr.oob (R58, R60). -/
def Thread.addOob (t : Thread) (n : Nat) : Thread :=
  let c := t.oob.toNat % 2 ^ 32 + n
  { t with oob := if 2 ^ 32 ≤ c then BitVec.ofNat 64 (2 ^ 63 + (2 ^ 32 - 1)) else BitVec.ofNat 64 (t.oob.toNat / 2 ^ 63 * 2 ^ 63 + c) }

/-- Changes the thread of an item. -/
def State.onThread (s : State) (w : Work) (f : Thread → Thread) : State :=
  s.setThreadAt w.core w.slot (f (s.threadAt w.core w.slot))

/-- A command of a core reads elements of a tensor: the offsets of the words delivered as zero, from the copy's first byte, and the
state with its counts and corrections (R121, R122). -/
def State.readElems (s : State) (core : Nat) (t : Tensor) (idx : List Nat) : List Nat × State :=
  if s.bad.isEmpty && s.soft.isEmpty then ([], s)
  else
    let words := t.elemWords idx
    ((words.filter (fun o => s.bad.contains (s.tensorWord t o))).map (8 * ·), s.readWords core (words.map (s.tensorWord t)))

/-- An item's command reads elements of a tensor for its thread: with error traps enabled, a word delivered as zero notes the trap
(R122), with the data's address in a RAW tensor, and an address that the manual does not state in any other (log 82). -/
def State.noteBad (s : State) (w : Work) (t : Tensor) (idx : List Nat) : State :=
  match s.readElems w.core t idx with
  | ([], s) => s
  | (b :: _, s) =>
    if !s.etrap w.core then s
    else
      let (addr, s) := if t.rawPte = 0 then s.draw else (t.rawBase + b, s)
      s.onThread w (fun th => { th with errTrap := th.errTrap.orElse fun _ => some (BitVec.ofNat 64 addr, w.pc, false) })

/-! ## Positions (R12, R70, R90) -/

/-- The handles of an item's command. -/
def Work.handles (w : Work) : List Nat := match w.body with | .handle c _ => c.handles | _ => []

/-- Every command at a lower position in the order of a handle the item names has completed (R59). -/
def State.first (s : State) (w : Work) : Bool :=
  match w.arrived with
  | none => false
  | some at_ => s.work.all (fun x =>
      match x.arrived with
      | some y => !(decide (y < at_) && x.handles.any (w.handles.contains ·))
      | none => true)

/-- An earlier item of the same thread still has an access to a byte of the ranges to make (R74). -/
def State.prior (s : State) (w : Work) (ranges : List (Nat × Nat)) : Bool :=
  s.work.any (fun x => x.issuedBefore w && ranges.any (fun r => x.touches r.1 r.2))

/-- The scratchpad bytes that a positioned command moves. -/
def HandleCmd.ranges (c : HandleCmd) : List (Nat × Nat) :=
  match c with
  | .ld _ run | .gat _ _ run => run.ranges
  | _ => []

/-- The frames that the widenings at lower positions leave a tensor (R70). -/
def State.nextFrames (s : State) (t : Tensor) : List Nat :=
  s.work.foldl (fun l w => match w.body with
    | .handle (.widen h _ (some (_, frames, false))) _ => if h = t.handle then frames else l
    | _ => l) t.frames

/-- What a widening reserves: the representation it converts to, its frames and whether it only adds a copy, none
where the chooser's result stays as it is; or why it reserves nothing: frames are lacking (false), or items in flight still reach
those that it would draw (true) (R15, R69, R70). The frames count against cr.rquota and are drawn from the one pool of free frames of
their stacks, which `t.new` draws from too (log 71). A representation that stays STRIPED stays on its die. A copy that is only added
goes to the die opposite the one that the existing copy stands on (R65). DESIGN CHOICE (log 84): the issuing die of R65 is that of the
thread that issues the `t.widen`. -/
def State.planWidening (s : State) (t : Tensor) (issuing ops : Nat) : Except Bool (Option (Rep × List Nat × Bool) × State) :=
  let rep := chooser ops t.desc.fmt
  if rep = t.nextRep then .ok (none, s)
  else
    let stays := rep.placement = t.nextRep.placement
    let adds := rep.layout = t.nextRep.layout ∧ stays ∧ rep.replicated ∧ !t.nextRep.replicated
    let now := ((s.nextFrames t).map stackOf).headD (4 * t.home) / 4
    let die := if rep.replicated then t.home else if stays then now else s.chooseDie t.desc.hints issuing
    let one := copyStacks rep t.desc die (s.chooseStack die)
    let first := if adds then now else die
    let two := if rep.replicated then copyStacks rep t.desc (1 - first) 0 else []
    let drawn := if adds then two else one ++ two
    if 8 * stackFrames < layoutFrames rep.layout t.desc.fmt t.desc.count ∨ (s.partition t.owner).rquota.toNat < drawn.length ∨ !s.hasFrames drawn then
      .error false
    else
      match s.drawFrames drawn with
      | none => .error true
      | some (frames, s) =>
        let p := s.partition t.owner
        .ok (some (rep, frames, adds), s.setPartition t.owner { p with rquota := p.rquota - BitVec.ofNat 32 drawn.length })

/-- Puts a positioned command back among the items in flight. -/
def State.position (s : State) (w : Work) (cmd : HandleCmd) (answer : Option Nat) : State :=
  let s := s.replaceWork { w with arrived := some s.tick, body := .handle cmd none }
  match answer with
  | some v => s.answer w (.answered (BitVec.ofNat 64 v))
  | none => s

/-- Refuses a command: it takes no position, and its thread traps (R12). -/
def State.refuse (s : State) (w : Work) (cause taddr tinfo : Nat) : State :=
  (s.dropWork w.id).answer w (.refused cause (BitVec.ofNat 64 taddr) (BitVec.ofNat 64 tinfo))

/-- Takes the stochastic draws of a run that an item writes for its thread, one for each element (R157). -/
def State.drawFor (s : State) (w : Work) (r : Run) : Run × State :=
  match r.entry with
  | none => (r, s)
  | some (e, _) =>
    if modeOf (entryOf e).rm = .sr then
      let (ds, x) := srsDraws (s.threadAt w.core w.slot).srs r.count
      ({ r with draws := ds }, s.onThread w (fun t => { t with srs := x }))
    else (r, s)

/-- A handle command arrives at its controller, and is positioned or refused (R12). One that is positioned has stepped its thread's
LFSR once for each element that it rounds stochastically (R10, R157). DESIGN CHOICE (log 89): where two handles fail one row of R78's
table, cr.taddr holds the first of them in the order of the operands. -/
def execHandleCommandArrival (k : Nat) (s : State) : Out :=
  s.begin k fun w s =>
    match w.body with
    | .handle cmd _ =>
      let needs := s.needs cmd
      let lacks := needs.find? (fun p =>
        match s.tensor p.1 with | some t => needOn needs p.1 &&& (0xFFFF - t.ops) != 0 | none => true)
      if w.arrived.isSome then .fault .noSuchEvent
      else
        match cmd.handles.find? (fun h => !s.liveHandle w.core h), lacks with
        | some h, _ => .next (s.refuse w 0x41 h 0)
        | none, some p => .next (s.refuse w 0x40 p.1 (needOn needs p.1))
        | none, none =>
          match cmd with
          | .new d =>
            match s.newTensor w.core (s.threadAt w.core w.slot).asid.toNat d with
            | none => .fault .noSuchEvent
            | some (h, s) => .next ((s.dropWork k).answer w (.answered (BitVec.ofNat 64 h)))
          | .free h => .next ((s.onTensor h (fun t => { t with freed := true })).position w cmd (some 0))
          | .q h sel d _ => .next (s.position w (.q h sel d (match s.tensor h with | some t => t.ops | none => 0)) (some k))
          | .widen h ops _ =>
            match s.tensor h with
            | none => .fault .noSuchEvent
            | some t =>
              let all := t.ops ||| ops
              if incompatible all || (ops.testBit 9 && !t.ops.testBit 9) then .next (s.refuse w 0x44 h 0)
              else
                match s.planWidening t (dieOf w.core) all with
                | .error true => .fault .noSuchEvent
                | .error false => .next (s.position w (.widen h ops none) (some 1))
                | .ok (conv, s) =>
                  let s := s.onTensor h (fun t => { t with ops := all, nextRep := chooser all t.desc.fmt })
                  .next (s.position w (.widen h ops conv) (some 0))
          | .operand a b mx holds _ _ =>
            let th := s.threadAt w.core w.slot
            if !s.holdsLease w.core w.slot then
              .next ((s.onThread w (fun t => { t with mxRevoked := false })).refuse w (if th.mxRevoked then 0x74 else 0x68) 0 0)
            else
            let id := s.nextId
            let s1 := ((s.at_ w.core w.slot).acceptMx mx holds).at_ s.curCore s.curSlot
            .next ({ s1 with inPair := s.inPair, snap := s.snap }.position w (.operand a b mx holds id (s.array w.core).nextCfg) (some 0))
          | .cpT a b job =>
            let c := s.core w.core
            let x := vget c.copies job.ctx {}
            let job := { job with num := x.issued + 1 }
            let s := s.setCore w.core { c with copies := vset c.copies job.ctx { x with issued := x.issued + 1 },
                                               tags := c.tags &&& ~~~((1 : Word) <<< job.tag) }
            let s := s.addWork ⟨0, w.core, w.slot, 0, [], s.tick, w.pc, false, none, none, .clean, [], .copy job⟩
            .next (s.position w (.cpT a b job) (some 0))
          | .upOpen _ => .next (s.position w cmd none)
          | .ld v run => let (run, s) := s.drawFor w run; .next (s.position w (.ld v run) (some 0))
          | .gat h idx run => let (run, s) := s.drawFor w run; .next (s.position w (.gat h idx run) (some 0))
          | cmd => .next (s.position w cmd (some 0))
    | _ => .fault .noSuchEvent

/-! ## Effects (R79-R92) -/

/-- The value a `t.q` returns (R91). -/
def Tensor.query (t : Tensor) (sel ops : Nat) : Nat :=
  match sel with
  | 0 => ops
  | 1 =>
    (match t.rep.layout with | .lin => 0 | .tiled64 => 1 | .plane => 2 | .blocked => 3) +
    (match t.rep.placement with | .dieLocal => 0 | .striped => 16 | .sliced => 32) +
    (if t.rep.replicated then 64 else 0) + 256 * t.home
  | 2 => t.frames.length
  | 3 => t.rawBase
  | 4 => t.desc.count
  | _ => t.sticky.toNat

/-- Writes a run and leaves: a `t.ld` or `t.gat` completes (R74). -/
def State.putRun (s : State) (w : Work) (t : Tensor) (run : Run) (idx : List Nat) (xs : List ElemRead) : State :=
  let (d, m, g) := run.put t.desc.fmt xs
  let s := (s.writeRun d m run.ranges).noteBad w t idx
  ((s.onThread w (·.addFlags g)).dropWork w.id).settle w.core w.slot

/-- A phrase evaluated over a range, every element read before any is written (R85, R89). DESIGN CHOICE (log 87): for CVT, F0 of a
block-scaled handle 0 is its element format, unscaled and without the implicit factor; R87 and R155 define no rounding into a family. -/
def State.performPhrase (s : State) (w : Work) (h : Nat) (p : Phrase) (a n : Nat) : State :=
  match s.tensor h with
  | none => s
  | some t =>
    let f0 := (fmtOf (elemCode t.desc.fmt)).getD fp32
    let others := [h, p.h1, p.h2]
    let xs := (List.range n).map (fun j =>
      let i := a + j
      let (x, g) := p.eval f0 (fun q => match s.tensor (others[q]?.getD 0) with | some u => s.elemV u i | none => .fin false 0 0 false)
      (i, f32 x, g))
    let g := (xs.map (·.2.2)).foldl (· ||| ·) 0
    let reads := ((List.range 3).filter (fun q => p.ops.contains (0x10 + q))).filterMap (fun q => s.tensor (others[q]?.getD 0))
    let noted := reads.foldl (fun s t => s.noteBad w t ((List.range n).map (a + ·))) s
    let (g', s) := noted.putVals h (xs.map (fun x => (x.1, x.2.1)))
    s.stick h (g ||| g')

/-- A store through a view: what is stored, and how many positions are dropped (R58). -/
def View.sorted {α : Type} (v : View) (dims : List Nat) (xs : List α) : List (Nat × α) × Nat :=
  let r := xs.zipIdx.map (fun p => (v.writes dims p.2, p.1))
  (r.filterMap (fun p => match p.1 with | .stored i => some (i, p.2) | _ => none), (r.filter (fun p => p.1 == .dropped)).length)

/-- A `t.st`: elements and flags, and what it drops (R79, R83). DESIGN CHOICE (log 88): only an element that is stored raises flags, not
one at a padding or dropped position; R79 says neither. -/
def State.performStore (s : State) (w : Work) (t : Tensor) (v : View) (run : Run) (data : Nat) : State :=
  let h := t.handle
  let n := v.positions
  let (g, lost, s) : FFlags × Nat × State :=
    if run.entry.isSome then
      let (xs, lost) := v.sorted t.desc.dims (run.decode data)
      let (g, s) := s.putVals h xs
      (g, lost, s)
    else
      let (xs, lost) := v.sorted t.desc.dims (rawDecode t.desc.fmt data n)
      let (g, s) := s.putCodes h xs
      (g, lost, s)
  (s.onThread w (fun t => (t.addFlags g).addOob lost)).dropWork w.id

/-- The blocks of a view operand of the array, and the flags of encoding them (R207). -/
def State.viewBlocks (s : State) (v : View) (efmt sfmt l p k : Nat) : List Nat × FFlags :=
  match s.tensor v.handle with
  | none => ([], 0)
  | some t =>
    let z := v.n.map (fun _ => 0)
    let u := { v with padlo := z, padhi := z }
    encodeOperand efmt sfmt l p k ((List.range u.positions).map (fun n => (s.elemOf t u n).2.2))

/-- The indices of a view operand's interior. -/
def State.interior (s : State) (v : View) : List Nat :=
  let z := v.n.map (fun _ => 0)
  s.readsOf { v with padlo := z, padhi := z }

/-- Hands the array the operands that its command waits for, encoded under the configuration that governed its acceptance (R204, R207). -/
def State.fetchOperands (s : State) (a b : Option View) (id : Nat) (cfg : Option VWord) : State :=
  match s.findWork id with
  | none => s
  | some x =>
    match x.body with
    | .mx cl n (.mma sparse sa sb g t) =>
      match cfg.bind cfgOf with
      | none => s
      | some c =>
        let (sa, ga) := match a with
          | some v => let (l, g) := s.viewBlocks v c.fa c.sa c.la c.pa c.k; (MxSrc.view (some l), g)
          | none => (sa, 0)
        let (sb, gb) := match b with
          | some v => let (l, g) := s.viewBlocks v c.fb c.sb c.lb c.pb c.k; (MxSrc.view (some l), g)
          | none => (sb, 0)
        s.replaceWork { x with body := .mx cl n (.mma sparse sa sb (g ||| ga ||| gb) t) }
    | _ => s

/-- The region's channels in order, each with its share of the spill records (R233). -/
def Region.shape (chans : List Nat) (splen : Nat) : List Share :=
  let k := chans.length
  chans.zipIdx.map (fun p => ⟨p.1, .opened, [], 0, p.2 * (splen / k), splen / k, 0, 0, 0, 0, 0, [], [], false, 0⟩)

/-- The channels that home bytes of a region, rising (R233). -/
def Tensor.channels (t : Tensor) (first count : Nat) : List Nat :=
  let w := widthOf t.desc.fmt / 8
  let lo := first * w
  let hi := (first + count) * w
  ((List.range (hi / 256 + 1 - lo / 256)).map (fun i => channelOf (t.byteKey (max lo ((lo / 256 + i) * 256))))
    |> fun l => (if hi % 256 = 0 then l.dropLast else l).foldl (fun acc c => insertNat c acc) [])

/-- Bin entries of a channel that no open region holds (R233). -/
def State.freeBins (s : State) (chan : Nat) : Nat :=
  16384 - ((s.regions.filter (fun r => (r.share chan).any (fun x => x.state != .closed))).map (·.desc.quota)).foldl (· + ·) 0

/-- Two regions of one tensor overlap (R232). -/
def RegionDesc.overlaps (a b : RegionDesc) : Bool :=
  a.handle == b.handle && decide (a.first < b.first + b.count) && decide (b.first < a.first + a.count)

/-- The regions that are open in a partition. -/
def State.regionsOf (s : State) (owner : Nat) : Nat :=
  (s.regions.filter (fun r => (s.tensor r.desc.handle).any (fun t => t.owner == owner))).length

/-- Opens a region where entries and regions allow it: the stream identifier, or 0 (R234). -/
def State.openRegion (s : State) (d : RegionDesc) : Nat × State :=
  match s.tensor d.handle with
  | none => (0, s)
  | some t =>
    let chans := t.channels d.first d.count
    if chans.any (fun c => decide (s.freeBins c < d.quota)) ∨ 4096 ≤ s.regionsOf t.owner then (0, s)
    else
      let (sid, s) := s.freshName (s.regions.map (·.sid)) (2 ^ 64)
      let fresh (c : Core) : Core := { c with emitSeq := c.emitSeq.filter (fun p => p.1 != sid) }
      let r : Region := ⟨sid, d, Region.shape chans d.splen, 0⟩
      let s : State := { s with cores := s.cores.map (fun (c : Nat × Core) => (c.1, fresh c.2)) }
      (sid, { s with regions := s.regions ++ [r] })

/-- Writes back and empties the sectors of a RAW region before it opens (R234): true once none is left. -/
def State.clearRegion (s : State) (d : RegionDesc) : Bool × State :=
  match s.tensor d.handle with
  | none => (true, s)
  | some t =>
    if t.rawPte = 0 then (true, s)
    else
      let r : Region := ⟨0, d, [], 0⟩
      let inside (k : Nat) : Bool := { s with regions := [r] }.inRegion k 64
      let busy := s.work.any (fun w => match w.body with | .writeBack _ k .. => inside k | _ => false)
      let dirty := s.clusters.any (fun c => c.2.sectors.any (fun x => inside x.key && x.mask != 0))
      let s := s.clusters.foldl (fun s c => s.writeBackAll c.1 (fun x => inside x.key)) s
      let s := { s with clusters := s.clusters.map (fun c => (c.1, { c.2 with sectors := c.2.sectors.filter (fun x => !inside x.key) })) }
      (!busy && !dirty, s)

/-- Begins closing every region of a tensor that is being freed, at each channel where nothing is held, as a close that arrives there
would (R239, R242). -/
def State.closeRegions (s : State) (h : Nat) : State :=
  s.regions.foldl (fun s r =>
    if r.desc.handle = h then
      r.shares.foldl (fun s x => if x.state = .opened ∧ !s.holdsAny r x then
          (match s.region r.sid with
            | some r' => s.startApply r' ((r'.share x.chan).getD x) .closing [] false
            | none => s) else s) s
    else s) s

/-- A copy of a context waits for those that its core issued there before (R285), and every copy while the partition is halted. -/
def State.copyWaits (s : State) (w : Work) : Bool :=
  match w.body with
  | .handle (.cpT _ _ job) _ =>
    s.halted w.core || s.work.any (fun y => y.core == w.core && (match y.body with | .copy i => i.ctx == job.ctx && decide (i.num < job.num) | _ => false))
  | _ => false

/-- A positioned command is performed, once every lower position of its handles has completed (R59) and its thread's earlier accesses to
the bytes that it writes have been performed (R74), and leaves. Until then it reaches no channel (R239). -/
def execHandleCommandCompletion (k : Nat) (s : State) : Out :=
  match s.findWork k with
  | none => .fault .noSuchEvent
  | some w =>
    match w.body with
    | .handle cmd _ =>
      if !s.first w || s.copyWaits w || s.prior w cmd.ranges || s.holdsRanges w cmd.ranges then .fault .noSuchEvent
      else
        match s.regionAccess w with
        | (false, s') => heldStep s s' w { w with body := .handle cmd (some s.tick) }
        | (true, s) =>
          let s := cmd.handles.foldl (fun s h => match s.tensor h with
            | some t => t.frames.foldl (fun s f => s.touchRange f 4096) s
            | none => s) s
          match cmd with
          | .new _ => .fault .noSuchEvent
          | .free h =>
            let regs := s.regions.filter (fun r => r.desc.handle == h)
            if regs.isEmpty then
              match s.tensor h with
              | some t =>
                let p := s.partition t.owner
                let s := { s.setPartition t.owner { p with freedHandles := (h, p.newCount) :: p.freedHandles } with
                  tensors := s.tensors.filter (fun x => x.handle != h) }
                .next ((s.returnFrames t.owner t.frames t.quota).dropWork k)
              | none => .next (s.dropWork k)
            else if (s.closeRegions h).regions = s.regions then .fault .noSuchEvent
            else .next (s.closeRegions h)
          | .ld v run =>
            match s.tensor v.handle with
            | none => .next (s.dropWork k)
            | some t => .next (s.putRun w t run (s.readsOf v) ((List.range v.positions).map (s.elemOf t v)))
          | .gat h idx run =>
            match s.tensor h with
            | none => .next (s.dropWork k)
            | some t =>
              let idx := idx.map (fun i => min i (t.desc.count - 1))
              .next (s.putRun w t run idx (idx.map (s.readElem t)))
          | .st v run data =>
            match s.tensor v.handle with
            | none => .next (s.dropWork k)
            | some t => .next (s.performStore w t v run data)
          | .phr h p a n => .next (((s.performPhrase w h p a n).dropWork k).settle w.core w.slot)
          | .q h sel d ops =>
            match d, s.tensor h with
            | some d, some t => .next (s.toRet w d (BitVec.ofNat 512 (t.query sel ops)) none 0)
            | _, _ => .fault .noSuchEvent
          | .widen _ _ conv => if conv.isSome then .fault .noSuchEvent else .next (s.dropWork k)
          | .operand a b _ _ id cfg =>
            let read (s : State) (v : Option View) : State := match v with
              | some v => (match s.tensor v.handle with | some t => (s.readElems w.core t (s.interior v)).2 | none => s)
              | none => s
            .next (read (read ((s.fetchOperands a b id cfg).dropWork k) a) b)
          | .cpT a b job =>
            match s.tensor a.handle, s.tensor b.handle,
                s.work.find? (fun x => match x.body with | .copy j => x.core == w.core && j.ctx == job.ctx && j.num == job.num | _ => false) with
            | some ta, some tb, some x =>
              match x.body with
              | .copy j =>
                  let src := (List.range a.positions).map (fun n => (s.elemOf ta a n).2.2)
                  let (xs, lost) := b.sorted tb.desc.dims src
                  let (hits, s) := s.readElems w.core ta (s.readsOf a)
                  let cause := if hits.isEmpty then j.cause else 0x73
                  let (g, s) := s.putVals tb.handle xs
                  let s := s.stick tb.handle g
                  .next ((s.replaceWork { x with body := .copy { j with moved := true, drops := lost, cause := cause } }).dropWork k)
              | _ => .fault .noSuchEvent
            | _, _, _ => .next (s.dropWork k)
          | .upOpen d =>
            match s.clearRegion d with
            | (false, s') => if s' = s then .fault .noSuchEvent else .next s'
            | (true, s) =>
              let (sid, s) := s.openRegion d
              .next ((s.dropWork k).answer w (.answered (BitVec.ofNat 64 sid)))
    | _ => .fault .noSuchEvent

/-! ## Conversion (R13, R69) -/

/-- Writes every cached dirty byte of a frame back and empties the sectors (R194), an uncorrectable word as zero in its masked bytes
(R121, R195). -/
def State.flushFrame (s : State) (key : Nat) : State :=
  s.clusters.foldl (fun s c =>
    let mine := c.2.sectors.filter (fun x => decide (key ≤ x.key) && decide (x.key < key + 4096))
    mine.foldl (fun s x =>
      let data := (s.asRead c.1 x).data
      ((s.correctDirty (c.1 * 16 + highestWriter x.writers) c.1 x.key (List.range 8)).writeHome x.key 64 data.toNat
        (spread x.mask).toNat).emptySector c.1 x.key) s) s

/-- The words of a tensor's first copy that hold an error, as a conversion that reads it for a core meets them (R121, R122). -/
def State.readFrames (s : State) (core : Nat) (frames : List Nat) : State :=
  s.readWords core ((s.bad ++ s.soft).eraseDups.filter (fun w => frames.any (fun f => decide (s.fwd f ≤ 8 * w) && decide (8 * w < s.fwd f + 4096))))

/-- A tensor as a conversion reads it: what uncorrectable words held is zero (R122). -/
def State.asConverted (s : State) (t : Tensor) : Tensor :=
  if s.bad.isEmpty then t
  else { t with elems := (t.elems.map (fun p => (p.1, (s.elem t p.1).1))).filter (fun p => p.2 != 0),
                scales := (t.scales.map (fun p => (p.1, (s.elem t (p.1 * blockLen t.desc.fmt)).2))).filter (fun p => p.2 != 0) }

/-- A conversion runs at its widening's position: the tensor takes its new representation and its old frames return
to their pool (R13, R14). A RAW tensor's bytes move with it, to frames that hold nothing of an earlier tensor and that nothing in flight
reaches (R15); uncorrectable words are read as zero (R122). DESIGN CHOICE (log 82): with ETRAP = 1 a `t.widen` whose conversion meets such
a word is counted and takes no 0x73, since its one result, the status, was written at its position. -/
def execWideningConversion (k : Nat) (s : State) : Out :=
  match s.findWork k with
  | none => .fault .noSuchEvent
  | some w =>
    match w.body with
    | .handle (.widen h _ (some (rep, frames, adds))) _ =>
      match s.tensor h with
      | none => .fault .noSuchEvent
      | some t =>
        let raw := t.rawPte ≠ 0
        if !s.first w || (raw && (t.frames ++ frames).any s.frameBusy) then .fault .noSuchEvent
        else
          let s := if raw then t.frames.foldl State.flushFrame s else s
          let s := frames.foldl State.wipeFrame s
          if adds then
            let u : Tensor := { t with rep := rep, frames := t.frames ++ frames, quota := t.quota + frames.length }
            .next (((s.readFrames w.core t.frames).setTensor u).dropWork k)
          else
            let s := if raw then
                (t.frames.zip frames).foldl (fun s p => s.writeBytes p.2 4096 (s.readNat p.1 4096) (bytesMask 4096)) s
              else s
            let u := if raw then t else s.asConverted t
            let s := (s.readFrames w.core t.frames).returnFrames t.owner t.frames t.quota
            .next ((s.setTensor { u with rep := rep, frames := frames, quota := frames.length }).dropWork k)
    | _ => .fault .noSuchEvent

end Sys2Proof.Machine
end

