-- ==== Sys2Proof/Machine/Tensors.lean ====
section
/-! DEFINITION. The tensor instructions and `up.open` at issue: their operands and their checks in order
(04 R52-R55, 06 R77-R92, 16 R224, 17 R232-R234, R245). -/

set_option Elab.async false

namespace Sys2Proof.Machine

open Sys2Proof

/-! ## Operands -/

/-- Row 3 of R78: the address lies in one of the windows named, or its cause. DESIGN CHOICE (log 93): an address in a reserved window has
row 3's 0x46, where R184 has every instruction take 0x15. Of two operands that fail this row the caller tests the first first (log 89). -/
def State.rowThree (s : State) (ea : Word) (wins : Nat → Bool) : Option Nat :=
  if ea.toNat / 2 ^ 56 ≠ 0xF0 then some 0x46
  else
    match s.place ea.toNat s.src.seg wins with
    | .ok _ => none
    | .error e => some (if e = 0x15 then 0x46 else e)

/-- The offset of the first uncorrectable byte of a run. -/
def State.badOffset (s : State) : List (Nat × Nat) → Nat
  | [] => 0
  | (k, n) :: r => if s.badAt k n then 0 else n + s.badOffset r

/-- Reads a run of the acting thread's operands at issue (R73). An error is the command's own: it is taken after it (R122). -/
def State.takeRun (s : State) (ea : Word) (r : List (Nat × Nat)) : Nat × State :=
  let at_ := ea + BitVec.ofNat 64 (s.badOffset r)
  let (x, bad, s) := s.readRun s.curCore r
  (x, if bad ∧ s.etrap s.curCore then s.setThread { s.thread with errTrap := s.thread.errTrap.orElse fun _ => some (at_, s.pc, true) } else s)

/-- Continues with n bytes of windows 0 or 1 read at issue, once the thread may read them; a run that leaves its
cluster has the cause `beyond`. -/
def withRun (s0 s : State) (ea : Word) (n beyond : Nat) (k : Nat → State → Out) : Out :=
  match s.rawRun ea n beyond with
  | .error e => .next (s.trapFrom s0 e ea)
  | .ok r => if !s.runReadable r then .next s0.park else let (x, s) := s.takeRun ea r; k x s

/-- Continues with the live tensor of a handle (R52). -/
def withTensor (s0 s : State) (h : Nat) (k : Tensor → Out) : Out :=
  match s.tensor h with
  | some t => if t.freed ∨ t.owner ≠ s.partOf s.curCore then .next (s.trapFrom s0 0x41 (BitVec.ofNat 64 h)) else k t
  | none => .next (s.trapFrom s0 0x41 (BitVec.ofNat 64 h))

/-- Continues with a view descriptor and its tensor: the handle is checked first, then the view (R55). DESIGN CHOICE (log 104): a
misaligned view whose 64 bytes leave the cluster has no HANDLE to read, so it is 0x43. -/
def withView (s0 s : State) (ea : Word) (k : View → Tensor → State → Out) : Out :=
  withRun s0 s ea 64 0x43 fun x s =>
    withTensor s0 s (x % 2 ^ 64) fun t =>
      if ea.toNat % 64 ≠ 0 then .next (s.trapFrom s0 0x43 ea)
      else
        match viewOf x t.desc.dims.length t.desc.fmt with
        | none => .next (s.trapFrom s0 0x43 ea)
        | some v => k v t s

/-- The windows a transfer may name (R79). -/
def transferWindows (w : Nat) : Bool := w ≤ 10

/-- The run of a transfer of `count` elements of a tensor's format, or its cause; whether the transfer writes the
run (R79, R192). -/
def State.transferRun (s : State) (ea : Word) (fmt count : Nat) (write : Bool) : Except Nat Run :=
  match s.place ea.toNat s.src.seg transferWindows with
  | .error e => .error e
  | .ok p =>
    if p.win ≤ 1 then
      let w := widthOf fmt
      if (familyOf fmt).isNone ∧ 8 ≤ w ∧ ea.toNat % (w / 8) ≠ 0 then .error 0x46
      else
        match s.rawRun ea (rawBytes fmt count) 0x46 with
        | .error e => .error e
        | .ok r => .ok ⟨r, none, 0, 0, 0, count, []⟩
    else s.windowRun ea count false write

/-- Takes the stochastic draws of a run that `mx.st` writes, one for each element (R157, R214). -/
def State.drawRun (s : State) (r : Run) : Run × State :=
  match r.entry with
  | none => (r, s)
  | some (w, _) => let (ds, s) := s.drawsFor (modeOf (entryOf w).rm) r.count; ({ r with draws := ds }, s)

/-- Sends a handle command to its controller and parks (R12). None is sent before every earlier ld.fe and ld.ff of the thread has been
performed: what reads memory at issue waits for them there, and t.free, t.q and t.widen by `afterAcquires` (R109). -/
def State.askHandle (s : State) (die : Nat) (cmd : HandleCmd) (holds : List (Nat × Nat × Bool)) : State :=
  s.ask (fun s => s.addWork { s.item (controllerHome die) [] false (.handle cmd none) with holds := holds })

/-! ## The instructions -/

/-- t.new (R80). -/
def execTNew (a b : Opd) (s : State) : Out :=
  withReply [⟨.scalar, .dst, a⟩, ⟨.scalar, .src, b⟩] s
    (fun s0 =>
      let (ea, s) := s0.readS b
      match s.rowThree ea rawWindows with
      | some e => .next (s0.trap e ea)
      | none => withRun s0 s ea 64 0x42 fun x s =>
        if ea.toNat % 64 ≠ 0 then .next (s.trapFrom s0 0x42 ea)
        else
          match descOf x ea with
          | none => .next (s.trapFrom s0 0x42 ea)
          | some d =>
            if incompatible d.ops then .next (s.trapFrom s0 0x44 ea)
            else .next (s.askHandle (dieOf s.curCore) (.new d) []))
    (fun v s => .next (s.resultS a v true).complete)

/-- t.free (R81). -/
def execTFree (a : Opd) (s : State) : Out :=
  withReply [⟨.scalar, .src, a⟩] s
    (fun s0 =>
      let (h, s) := s0.readS a
      withTensor s0 s h.toNat fun t => afterAcquires s0 s fun s => .next (s.askHandle t.home (.free t.handle) []))
    (fun _ s => .next s.complete)

/-- t.ld (R82). -/
def execTLd (a b : Opd) (s : State) : Out :=
  withReply [⟨.scalar, .src, a⟩, ⟨.scalar, .src, b⟩] s
    (fun s0 =>
      let (va, s) := s0.readS a
      let (da, s) := s.readS b
      match s.rowThree va rawWindows, s.rowThree da transferWindows with
      | some e, _ => .next (s0.trap e va)
      | none, some e => .next (s0.trap e da)
      | none, none => withView s0 s va fun v t s =>
        match s.transferRun da t.desc.fmt v.positions true with
        | .error e => .next (s.trapFrom s0 e da)
        | .ok run => .next (s.askHandle t.home (.ld v run) (run.holds true)))
    (fun _ s => .next s.complete)

/-- t.st: its source run is read at issue (R73, R83). -/
def execTSt (a b : Opd) (s : State) : Out :=
  withReply [⟨.scalar, .src, a⟩, ⟨.scalar, .src, b⟩] s
    (fun s0 =>
      let (va, s) := s0.readS a
      let (da, s) := s.readS b
      match s.rowThree va rawWindows, s.rowThree da transferWindows with
      | some e, _ => .next (s0.trap e va)
      | none, some e => .next (s0.trap e da)
      | none, none => withView s0 s va fun v t s =>
        match s.transferRun da t.desc.fmt v.positions false with
        | .error e => .next (s.trapFrom s0 e da)
        | .ok run =>
          if !s.runReadable run.ranges then .next s0.park
          else
            let (x, s) := s.takeRun da run.ranges
            .next (s.askHandle t.home (.st v run x) []))
    (fun _ s => .next s.complete)

/-- t.gat: its index list is read at issue (R84). -/
def execTGat (a b c : Opd) (s : State) : Out :=
  withReply [⟨.scalar, .src, a⟩, ⟨.scalar, .src, b⟩, ⟨.scalar, .src, c⟩] s
    (fun s0 =>
      let (h, s) := s0.readS a
      let (ia, s) := s.readS b
      let (da, s) := s.readS c
      match s.rowThree ia rawWindows, s.rowThree da transferWindows with
      | some e, _ => .next (s0.trap e ia)
      | none, some e => .next (s0.trap e da)
      | none, none => withTensor s0 s h.toNat fun t =>
        if ia.toNat % 8 ≠ 0 then .next (s0.trap 0x48 ia)
        else withRun s0 s ia 8 0x46 fun hd s1 =>
          let n := byteField hd 3 0
          let wide := byteField hd 7 7
          if n = 0 ∨ 65536 < n ∨ byteField hd 6 4 ≠ 0 ∨ 1 < wide then .next (s1.trapFrom s0 0x48 ia)
          else
            let w := if wide = 1 then 8 else 4
            withRun s0 s ia (8 + n * w) 0x46 fun x s =>
              match s.transferRun da t.desc.fmt n true with
              | .error e => .next (s.trapFrom s0 e da)
              | .ok run =>
                let idx := unpackCodes (8 * w) (x / 2 ^ 64) n
                .next (s.askHandle t.home (.gat t.handle idx run) (run.holds true)))
    (fun _ s => .next s.complete)

/-- The range of a `t.phr` passes the last element, or does not fall on the blocks of a block-scaled format
(R85). DESIGN CHOICE (log 74): the end of the elements counts as the end of a block where the last block is partial. -/
def badRange (d : TensorDesc) (first count : Nat) : Bool :=
  count != 0 &&
  (decide (d.count < first + count) ||
    (match familyOf d.fmt with
      | some f => first % f.len != 0 || ((first + count) % f.len != 0 && first + count != d.count)
      | none => false))

/-- t.phr: its phrase block is read at issue (R85-R90). -/
def execTPhr (a b c : Opd) (s : State) : Out :=
  withReply [⟨.scalar, .src, a⟩, ⟨.scalar, .src, b⟩, ⟨.scalar, .src, c⟩] s
    (fun s0 =>
      let (h, s) := s0.readS a
      let (pa, s) := s.readS b
      let (rng, s) := s.readS c
      match s.rowThree pa rawWindows with
      | some e => .next (s0.trap e pa)
      | none => withTensor s0 s h.toNat fun t => withRun s0 s pa 64 0x45 fun x s =>
        match (if pa.toNat % 64 = 0 then phraseOf x else none) with
        | none => .next (s.trapFrom s0 0x45 pa)
        | some p =>
          let cmd : HandleCmd := .phr t.handle p (bits rng.toNat 63 40 * 65536) (bits rng.toNat 39 0)
          match cmd.handles.find? (fun q => !s.liveHandle s.curCore q) with
          | some q => .next (s.trapFrom s0 0x41 (BitVec.ofNat 64 q))
          | none =>
            if badRange t.desc (bits rng.toNat 63 40 * 65536) (bits rng.toNat 39 0) then .next (s.trapFrom s0 0x46 rng)
            else
              match cmd.handles.find? (fun q => (s.tensor q).any (fun u => u.desc.dims != t.desc.dims)) with
              | some q => .next (s.trapFrom s0 0x47 (BitVec.ofNat 64 q))
              | none => .next (s.askHandle t.home cmd []))
    (fun _ s => .next s.complete)

/-- t.q: positioned, its thread goes on; the value comes when its position is reached (R77, R91). -/
def execTQ (a b : Opd) (which : BitVec 6) (s : State) : Out :=
  withReply [⟨.scalar, .dst, a⟩, ⟨.scalar, .src, b⟩] s
    (fun s0 =>
      let (h, s) := s0.readS b
      withTensor s0 s h.toNat fun t => afterAcquires s0 s fun s =>
        .next (s.askHandle t.home (.q t.handle which.toNat none 0) []))
    (fun v s =>
      let (d, s) := s.dstS a
      match s.findWork v.toNat with
      | some w =>
        match w.body with
        | .handle (.q h sel _ ops) x => .next (s.replaceWork { w with body := .handle (.q h sel (some d) ops) x }).complete
        | _ => .next s.complete
      | none => .next s.complete)

/-- t.widen (R92). DESIGN CHOICE (log 105): the 0x01 of bits [63:13] of its operand, which R92 names and R78's table does not place, comes
after 0x04 and before the handle's 0x41. -/
def execTWiden (a b c : Opd) (s : State) : Out :=
  needPrivilege s fun s =>
  withReply [⟨.scalar, .dst, a⟩, ⟨.scalar, .src, b⟩, ⟨.scalar, .src, c⟩] s
    (fun s0 =>
      let (h, s) := s0.readS b
      let (ops, s) := s.readS c
      if bits ops.toNat 63 13 ≠ 0 then .next (s0.trap 0x01 0)
      else withTensor s0 s h.toNat fun t => afterAcquires s0 s fun s =>
        .next (s.askHandle t.home (.widen t.handle (ops.toNat % 2 ^ 16) none) []))
    (fun v s => .next (s.resultS a v true).complete)

/-! ## up.open (R224, R232-R234) -/

/-- Element formats a region may have (R232). -/
def regionFormat (f : Nat) : Bool := [0x01, 0x02, 0x03, 0x05, 0x06, 0x0A, 0x0B, 0x0C].contains f

/-- The keys of the 64-byte lines of translated pages, in order. -/
def lineKeys (accs : List Access) : List Nat :=
  accs.flatMap (fun a => (List.range (ceilDiv a.n 64)).map (fun i => a.key + 64 * i))

/-- The fields of a region descriptor that break no limit for its tensor (R232, R233). -/
def regionOk (x : Nat) (t : Tensor) : Bool :=
  let first := byteField x 15 8
  let count := byteField x 23 16
  let splen := byteField x 35 32
  let quota := byteField x 39 36
  regionFormat t.desc.fmt && byteField x 31 24 % 64 == 0 && decide (byteField x 31 24 < 2 ^ 56) &&
    decide (first < t.desc.count ∧ 1 ≤ count ∧ count ≤ 2 ^ 32 ∧ first + count ≤ t.desc.count ∧ 2 ≤ splen ∧ splen ≤ 2 ^ 24 ∧
      1 ≤ quota ∧ quota ≤ 16384) &&
    decide (byteField x 40 40 ≤ 1) && byteField x 47 41 == 0 && byteField x 63 56 == 0 &&
    decide (2 ≤ splen / (t.channels first count).length)

/-- Continues with a 64-byte block of windows 0 or 1 under the checks of R106. -/
def withBlock (s0 s : State) (ea : Word) (k : Nat → State → Out) : Out :=
  match s.blockAt ea 64 with
  | .error e => .next (s.trapFrom s0 e ea)
  | .ok a =>
    match s.readNow a with
    | none => .next (s0.parkForRead a)
    | some (x, s) => k x s

/-- The lower of the faults of two ranges, or the accesses of both (R234). -/
def bothRanges (a b : Except (Nat × Word) (List Access)) : Except (Nat × Word) (List Access × List Access) :=
  match a, b with
  | .ok x, .ok y => .ok (x, y)
  | .ok _, .error e => .error e
  | .error e, .ok _ => .error e
  | .error e, .error f => .error (if f.2.toNat < e.2.toNat then f else e)

/-- A region that overlaps one is being opened by a command that has passed its checks: the issue waits for it (R245). -/
def State.opening (s : State) (d : RegionDesc) : Bool :=
  s.work.any (fun w =>
    match w.body with
    | .handle (.upOpen e) _ => e.overlaps d
    | _ => false)

/-- up.open (R224, R232-R234, R245). -/
def execUpOpen (a b : Opd) (s : State) : Out :=
  withReply [⟨.scalar, .dst, a⟩, ⟨.scalar, .src, b⟩] s
    (fun s0 =>
      let (ea, s) := s0.readS b
      withBlock s0 s ea fun x s =>
        let pa : Word := BitVec.ofNat 64 (byteField x 55 48)
        withBlock s0 s pa fun y s => withTensor s0 s (byteField x 7 0) fun t =>
          let first := byteField x 15 8
          let count := byteField x 23 16
          let p := (phraseOf y).bind (fun p => if p.nh = 2 ∧ p.h1 = 0 ∧ p.h2 = 0 then some p else none)
          let d : RegionDesc := ⟨t.handle, first, count, [], byteField x 35 32, byteField x 39 36, byteField x 40 40 == 1,
            p.getD ⟨[], 0, [], 0, 0⟩, [], ea⟩
          if !regionOk x { t with frames := s.nextFrames t } || s.regions.any (fun r => r.desc.overlaps d) then .next (s.trapFrom s0 0x46 ea)
          else if s.opening d then .next s0.park
          else if p.isNone then .next (s.trapFrom s0 0x45 pa)
          else if !t.ops.testBit 4 then .next (s.trapFrom s0 0x40 (BitVec.ofNat 64 t.handle) 0x10)
          else
            let (spill, s) := s.translateAll (byteField x 31 24) (16 * d.splen) { r := true, w := true }
            let w := widthOf t.desc.fmt / 8
            let (pages, s) :=
              if t.rawPte = 0 then (.ok [], s) else s.translateAll (t.rawBase + first * w) (count * w) { r := true, w := true }
            match bothRanges spill pages with
            | .error (e, at_) => .next (s.trapFrom s0 e at_)
            | .ok (spill, pages) =>
              let d := { d with spill := lineKeys spill, trans := (spill ++ pages).flatMap (·.trans) }
              .next (s.askHandle t.home (.upOpen d) []))
    (fun v s => .next (s.resultS a v true).complete)

end Sys2Proof.Machine
end

