-- ==== Sys2Proof/Machine/Matrix.lean ====
section
/-! DEFINITION. The matrix-array instructions at issue: the lease, operands and checks in order (14 R200-R214). -/

set_option Elab.async false

namespace Sys2Proof.Machine

open Sys2Proof

/-- mx.lease: parks until the array is granted to its thread (R200). -/
def execMxLease (s : State) : Out :=
  let a := s.array s.curCore
  let me := (s.curCore, s.curSlot)
  let s := s.setThread { s.thread with mxRevoked := false }
  if a.holder = some me then .next s.complete
  else if a.holder.isNone ∧ a.waiting.isEmpty then .next (s.grantLease s.curCore s.curSlot).complete
  else if a.waiting.contains me then .next s.park
  else .next ((s.setArray s.curCore { a with waiting := a.waiting ++ [me] }).parkWith (.wait 79 []))

/-- mx.free: ends the lease if its thread holds it, and returns the number of the latest command (R201, R214). -/
def execMxFree (a : Opd) (s : State) : Out :=
  withOperands [⟨.scalar, .dst, a⟩] s fun s =>
    let s := (s.endLease s.curCore s.curSlot).setThread { s.thread with mxRevoked := false }
    .next (s.resultS a (BitVec.ofNat 64 s.thread.mxLast) true).complete

/-- An array command's second check: its thread holds the lease, or its revocation is reported once (R201, R202). -/
def needLease (s : State) (k : State → Out) : Out :=
  if s.holdsLease s.curCore s.curSlot then k s
  else if s.thread.mxRevoked then .next ((s.setThread { s.thread with mxRevoked := false }).trap 0x74 0)
  else .next (s.trap 0x68 0)

/-- The configuration that the acting thread's next command meets (R204). -/
def State.nextTileCfg (s : State) : Option TileCfg := (s.array s.curCore).nextCfg.bind cfgOf

/-- mx.cfg: reads its block at issue (R203, R204). -/
def execMxCfg (a : Opd) (s : State) : Out :=
  withOperands [⟨.scalar, .src, a⟩] s fun s0 => needLease s0 fun s =>
    let (ea, s) := s.readS a
    withBlock s0 s ea fun x s =>
      let b : VWord := BitVec.ofNat 512 x
      if (cfgOf b).isNone then .next (s.trapFrom s0 0x69 ea)
      else .next (s.acceptMx (.cfg b) []).complete

/-- An operand as its register names it: plane blocks at a key of a core, in global memory, or a view (R205). -/
inductive OperandForm where
  | scratch (key : Nat)
  | global
  | view
deriving DecidableEq, Repr

/-- The form of an operand with its checks of address and extent (R205, R206). -/
def State.operandForm (s : State) (ea : Word) (shape : Option (Nat × Nat)) : Except Nat OperandForm :=
  let a := ea.toNat
  if a / 2 ^ 56 = 0 then (if a % 8 = 0 then .ok .global else .error 0x13)
  else
    match s.place a s.src.seg (fun w => w ≤ 2) with
    | .error e => .error e
    | .ok p =>
      if p.win = 2 then
        if a % 8 ≠ 0 then .error 0x13
        else if 2 ^ 18 < p.loc + (match shape with | some h => seqBytes h | none => 0) then .error 0x14
        else .ok (.scratch (scratchKey p.core p.loc))
      else if a % 64 ≠ 0 then .error 0x13
      else .ok .view

/-- Continues with the view operand that a register names, if it names one (R207). `n` gives its interior counts. -/
def withOperandView (s0 s : State) (ea : Word) (form : OperandForm) (refused : Bool) (n : Option (List Nat))
    (k : Option View → State → Out) : Out :=
  match form with
  | .view => withView s0 s ea fun v _ s =>
    if refused || v.n.length != 2 || (match n with | some n => v.n != n | none => false) then .next (s.trapFrom s0 0x43 ea)
    else k (some v) s
  | _ => k none s

/-- The bytes that the array will read of an operand, none of a view: the translation of a global one is checked whole (R209). -/
def State.sourceOf (s : State) (ea : Word) (form : OperandForm) (shape : Nat × Nat) : Except (Nat × Word) (List Access) × State :=
  match form with
  | .view => (.ok [], s)
  | .scratch key => (.ok [⟨key, seqBytes shape, .scratch, ea, []⟩], s)
  | .global => s.translateAll ea.toNat (seqBytes shape) { r := true }

/-- An operand as the array keeps it. -/
def OperandForm.source (form : OperandForm) (accs : List Access) : MxSrc :=
  match form with
  | .view => .view none
  | _ => .memory accs

/-- Continues with what the array will read of both operands; the lowest address that fails gives the cause (R209, R213). -/
def withSources (s0 s : State) (ea eb : Word) (fa fb : OperandForm) (c : TileCfg) (k : MxSrc → MxSrc → State → Out) : Out :=
  let (ra, s) := s.sourceOf ea fa c.shapeA
  let (rb, s) := s.sourceOf eb fb c.shapeB
  match bothRanges ra rb with
  | .error (e, at_) => .next (s.trapFrom s0 e at_)
  | .ok (x, y) => k (fa.source x) (fb.source y) s

/-- The bytes a source reads, which later stores of the thread wait for (R211). -/
def MxSrc.holds : MxSrc → List (Nat × Nat × Bool)
  | .memory accs => accs.map (fun a => (a.key, a.n, false))
  | .view _ => []

/-- mx.mma and mx.sp (R204-R209, R213). DESIGN CHOICE (log 86): where both operands fail row 3, or row 4, of R213's table, a's fault is
taken. -/
def multiply (sparse : Bool) (a b : Opd) (tile : BitVec 6) (s : State) : Out :=
  match s.thread.pend with
  | .answered _ => .next s.complete
  | .refused c ta ti => .next (s.trap c ta ti)
  | .wait .. => .next s.park
  | _ =>
    withOperands [⟨.scalar, .src, a⟩, ⟨.scalar, .src, b⟩] s fun s0 => needLease s0 fun s =>
      let (ea, s) := s.readS a
      let (eb, s) := s.readS b
      let cfg := s.nextTileCfg
      match s.operandForm ea (cfg.map (·.shapeA)), s.operandForm eb (cfg.map (·.shapeB)) with
      | .error e, _ => .next (s0.trap e ea)
      | .ok _, .error e => .next (s0.trap e eb)
      | .ok fa, .ok fb =>
        withOperandView s0 s ea fa false (cfg.map (fun c => [c.rows, c.k])) fun va s =>
        withOperandView s0 s eb fb sparse (cfg.map (fun c => [c.cols, c.k])) fun vb s =>
        match cfg with
        | none => .next (s.trapFrom s0 0x69 0)
        | some c =>
          if sparse != (c.spn != 0) then .next (s.trapFrom s0 0x69 0)
          else
            withSources s0 s ea eb fa fb c fun sa sb s =>
            let cmd : MxCmd := .mma sparse sa sb 0 tile.toNat
            let holds := sa.holds ++ sb.holds
            match va, vb with
            | none, none => .next (s.acceptMx cmd holds).complete
            | _, _ =>
              let h := match va, vb with | some v, _ => v.handle | none, some v => v.handle | none, none => 0
              let die := match s.tensor h with | some t => t.home | none => 0
              .next (s.askHandle die (.operand va vb cmd holds 0 none) [])

/-- mx.mma (R214). -/
def execMxMma (a b : Opd) (tile : BitVec 6) (s : State) : Out := multiply false a b tile s
/-- mx.sp (R214). -/
def execMxSp (a b : Opd) (tile : BitVec 6) (s : State) : Out := multiply true a b tile s

/-- mx.zero (R214). -/
def execMxZero (tile : BitVec 6) (s : State) : Out :=
  needLease s fun s =>
    if s.nextTileCfg.isNone then .next (s.trap 0x69 0) else .next (s.acceptMx (.zero tile.toNat) []).complete

/-- Continues with the run that an `mx.ld` reads or an `mx.st` writes: address, configuration, then entry, start and
extent (R213). -/
def withTileRun (write : Bool) (s0 s : State) (ea : Word) (k : Run → State → Out) : Out :=
  if ea.toNat / 2 ^ 56 = 0 then .next (s0.trap 0x15 ea)
  else
    match s.place ea.toNat s.src.seg elementWindows with
    | .error e => .next (s0.trap e ea)
    | .ok _ =>
      match s.nextTileCfg with
      | none => .next (s0.trap 0x69 0)
      | some c =>
        match s.windowRun ea (c.rows * c.cols) true write with
        | .error e => .next (s0.trap e ea)
        | .ok run => k run s

/-- mx.ld (R214). -/
def execMxLd (a : Opd) (tile : BitVec 6) (s : State) : Out :=
  withOperands [⟨.scalar, .src, a⟩] s fun s0 => needLease s0 fun s =>
    let (ea, s) := s.readS a
    withTileRun false s0 s ea fun run s => .next (s.acceptMx (.ld run tile.toNat) (run.holds false)).complete

/-- mx.st: its stochastic draws are taken at issue (R214). -/
def execMxSt (a : Opd) (tile : BitVec 6) (s : State) : Out :=
  withOperands [⟨.scalar, .src, a⟩] s fun s0 => needLease s0 fun s =>
    let (ea, s) := s.readS a
    withTileRun true s0 s ea fun run s =>
      let (run, s) := s.drawRun run
      .next (s.acceptMx (.st run tile.toNat) (run.holds true)).complete

end Sys2Proof.Machine
end

