-- ==== Sys2Proof/Machine/Homes.lean ====
section
/-! DEFINITION. The moment an access is performed: loads, stores, atomics, barriers, futures, monitors and
full/empty accesses at their homes, and what returns (10 R142-R145, 13 R193-R197, 18 R246-R259, 22 R302-R303). -/

set_option Elab.async false

namespace Sys2Proof.Machine

open Sys2Proof

/-! ## Loads, stores and atomics (R249, R250, R253) -/

/-- One part of a load is performed; the last part makes the result (R145, R249). -/
def State.takePart (s : State) (w : Work) (a : Access) (rest : List Access) (got len : Nat) (bad : Option Word) (dst : Dst)
    (ext : Extend) : State :=
  let (x, b, s) := s.loadPart w.core w.slot w.home a
  let got := got + x * 2 ^ (8 * len)
  let len := len + a.n
  let bad := bad.orElse fun _ => if b || w.link == .corrupt then some a.ea else none
  match rest with
  | [] => let (v, g) := extendLoad ext len got; s.toRet w dst v bad g a.trans
  | b :: _ => s.replaceWork { w with home := s.accessHome w.core b, arrived := none, body := .load rest got len bad dst ext }

/-- A load's next part; one that must fill its sector is sent behind the sector's write-backs on their way, and takes its turn among
its source's items to the home (R193, R194, R196, R247, R249, R289). -/
def performLoad (s : State) (w : Work) : Out :=
  match w.body with
  | .load (a :: rest) got len bad dst ext =>
    let go (s : State) : Out := .next (s.takePart w a rest got len bad dst ext)
    match a.via with
    | .scratch => go s
    | .home => atHome s w a go
    | .cached =>
      if !s.fromCache a then atHome s w { a with via := .home } go
      else if s.fillWaits w.core w.slot a then .next (s.replaceWork { w with deps := s.writeBacksAt w.core a.key })
      else if !s.sectorServes w.core w.slot a && (s.before w).any (fun x => x.blocks { w with home := s.homeOf w.core a.key }) then
        .fault .noSuchEvent
      else go s
  | _ => .fault .noSuchEvent

/-- A store (R194, R250). -/
def performStore (s : State) (w : Work) (a : Access) (data mask : Nat) : Out :=
  let go (s : State) : Out := .next ((s.storePart w.core w.home a data mask).dropWork w.id)
  match a.via with
  | .scratch => go s
  | .home => atHome s w a go
  | .cached => if s.fromCache a then go s else atHome s w { a with via := .home } go

/-- An atomic: one indivisible access at the home, its result the old value (R253). -/
def performAmo (s : State) (w : Work) (op : AmoOp) (a : Access) (dst : Dst) (x e : Word) : Out :=
  atHome s w a fun s =>
    if !s.arrives w.core w.home a.key then .next ((s.countUnc w.core (wordsOf a.key a.n).length).toRet w dst 0 (some a.ea) 0 a.trans)
    else
      let (old, bad, s) := s.readHome w.core a.key a.n
      let m := 2 ^ (8 * a.n)
      let s := match amoNew op a.n old (x.toNat % m) (e.toNat % m) with
        | some y => s.writeHome a.key a.n y (bytesMask a.n)
        | none => s
      .next (s.toRet w dst (BitVec.ofNat 512 old) (if bad || w.link == .corrupt then some a.ea else none) 0 a.trans)

/-! ## Barriers (R255, R256) -/

/-- A barrier object's fields. -/
structure Barrier where
  phase : Nat
  pend : Nat
  reload : Nat
  bytes : Int
deriving DecidableEq, Repr

/-- Reads a barrier object's two words. -/
def barrierOf (x : Nat) : Barrier := ⟨bits x 63 52, bits x 51 32, bits x 31 12, sext (x / 2 ^ 64) 64⟩

/-- The two words of a barrier object; the reserved bits are written 0. -/
def Barrier.toNat (b : Barrier) : Nat := b.phase * 2 ^ 52 + b.pend * 2 ^ 32 + b.reload * 2 ^ 12 + wrap b.bytes 64 * 2 ^ 64

/-- Turn (R256). -/
def Barrier.turn (b : Barrier) : Barrier :=
  if b.pend = 0 ∧ b.bytes = 0 then { b with phase := (b.phase + 1) % 4096, pend := b.reload } else b

/-- Writes a barrier object; every held wait is re-evaluated by the write (R256). -/
def State.putBarrier (s : State) (key : Nat) (b : Barrier) : State := s.writeHome key 16 b.toNat (bytesMask 16)

/-- A copy's action on a barrier, for the core of its context (R256, R285). -/
def State.barrierSub (s : State) (core key n : Nat) : State :=
  let (x, _, s) := s.readHome core key 16
  let b := barrierOf x
  s.putBarrier key ({ b with bytes := sext (wrap (b.bytes - n) 64) 64 }).turn

/-- A barrier operation at its home: 0 init, 1 arr, 2 exp, 3 wait (R256). -/
def State.performBarrier (s : State) (w : Work) (op : Nat) (a : Access) (arg : Word) : State :=
  let (x, _, s) := s.readHome w.core a.key 16
  let b := barrierOf x
  let done (b : Barrier) : State := ((s.dropWork w.id).answer w (.answered 0)).putBarrier a.key b
  let refuse : State := s.refuse w 0x55 a.ea.toNat 0
  match op with
  | 0 => if arg = 0 ∨ 2 ^ 20 ≤ arg.toNat then refuse else done ⟨0, arg.toNat, arg.toNat, 0⟩
  | 1 => if b.pend = 0 then refuse else done ({ b with pend := b.pend - 1 }).turn
  | 2 =>
    let t := b.bytes + sext arg.toNat 64
    if t < -(2 ^ 63) ∨ 2 ^ 63 ≤ t then refuse else done ({ b with bytes := t }).turn
  | _ =>
    if b.phase ≠ arg.toNat % 4096 then (s.dropWork w.id).answer w (.answered 0)
    else (s.replaceWork { w with arrived := some s.tick }).answer w (.wait 92 [w.id])

/-! ## Futures (R302, R303, R323) -/

/-- The home number of a die's syntax engine. -/
def engineHome (die : Nat) : Nat := 0x60000 + die

/-- The die whose engine a record's seal and notices go to: the die that homes it (R305). -/
def recordDie (key : Nat) : Nat := if isHbm key then key / 2 ^ 56 else 0

/-- The record of a key as its engine keeps it. -/
def Die.record (d : Die) (key : Nat) : Record := (d.records.find? (fun r => r.key == key)).getD ⟨key, 0, none, []⟩

/-- Keeps a record at its engine, or nothing of one that holds nothing. -/
def Die.putRecord (d : Die) (r : Record) : Die :=
  let rest := d.records.filter (fun x => x.key != r.key)
  if r.reg = 0 ∧ r.sealed_.isNone ∧ r.notices.isEmpty then { d with records := rest } else { d with records := rest ++ [r] }

/-- Changes what its engine keeps of a record. -/
def State.onRecord (s : State) (key : Nat) (f : Record → Record) : State :=
  let d := s.die (recordDie key)
  s.setDie (recordDie key) (d.putRecord (f (d.record key)))

/-- A thread of a graph, or of no live one (0), has put a record on a waiter list (R303, R305). Its engine knows a record by the key at
which it is held now (log 43). -/
def State.noteRecord (s : State) (key graph : Nat) : State := s.onRecord (s.fwd key) (fun r => { r with reg := graph })

/-- What an operation reads at a home: zero, and counted, where the path to it is lost (R297). -/
def State.readLive (s : State) (core key n : Nat) (live : Bool) : Nat × State :=
  if live then let (x, _, s) := s.readHome core key n; (x, s) else (0, s.countUnc core (wordsOf key n).length)

/-- What an operation writes at a home: dropped, and counted, where the path to it is lost (R297). -/
def State.writeLive (s : State) (core key n data : Nat) (live : Bool) : State :=
  if live then s.writeHome key n data (bytesMask n) else s.countDropM core

/-- The records of a waiter list from a head, as keys: link words are followed in the resolver's address space, each
at the address that it names (R303), and read at their homes (R196, R228, log 81). -/
def State.waiters (s : State) (core asid root : Nat) (head : Nat) : Nat → List Nat × State
  | 0 => ([], s)
  | n + 1 =>
    if head = 0 then ([], s)
    else
      match s.translate core asid root false false head {} with
      | (.error _, s) => ([], s)
      | (.ok t, s) =>
        let k := t.keyOf head
        let (x, s) := if s.reachable core (k + 56) then ((s.touch (k + 56)).applyNow [(k + 56, 8)]).followRead core (k + 56) 8
          else (0, s.countUnc core 1)
        let (l, s) := s.waiters core asid root (x % 2 ^ 56 / 64 * 64) n
        (s.fwd k :: l, s)

/-- Sends the resume notices of a list of records, each of which has left its list (R303, R305). -/
def State.sendNotices (s : State) (core slot : Nat) (keys : List Nat) : State :=
  keys.foldl (fun s k =>
    (s.addWork ⟨0, core, slot, engineHome (recordDie k), [], s.tick, 0, false, none, none, .clean, [],
      .notice k ((s.die (recordDie k)).record k).reg⟩).onRecord k (fun r => { r with reg := 0 })) s

/-- Resolves a future whose two words are x, to RESOLVED 2 or POISONED 3, over a live path or a lost one: false where it was resolved
already, and then nothing changes. -/
def State.resolve (s : State) (core slot asid root key x st : Nat) (v : Word) (live : Bool) : Bool × State :=
  if 2 ≤ x % 4 then (false, s)
  else
    let (keys, s) := s.waiters core asid root (bits x 63 14 % 2 ^ 50 * 64) (bits x 13 2)
    let s := s.sendNotices core slot keys
    (true, s.writeLive core key 16 (st + v.toNat * 2 ^ 64) live)

/-- A future operation at its home: 0 init, 1 reg, 2 res, 3 res.p, 4 rd, 5 rd.s; one that finds the future resolved
or poisoned acquires (R303, R323). Where its path is lost it reads zero and its writes are dropped (R297). -/
def State.performFuture (s : State) (w : Work) (op : Nat) (a : Access) (arg : Word) (rec : Option Access) : State :=
  let t := s.threadAt w.core w.slot
  let live := s.arrives w.core w.home a.key
  let (x, s) := s.readLive w.core a.key 16 live
  let st := x % 4
  let say (s : State) (v : Nat) : State := (s.dropWork w.id).answer w (.answered (BitVec.ofNat 64 v))
  let acquire (s : State) : State := if 2 ≤ st then s.onThread w (fun t => { t with acquired := s.tick }) else s
  match op with
  | 0 => say (s.writeLive w.core a.key 16 0 live) 0
  | 1 =>
    if st = 2 then say (acquire s) 1
    else if st = 3 then say (acquire s) 2
    else if bits x 13 2 = 4095 then s.refuse w 0x51 a.ea.toNat 0
    else
      match rec with
      | none => say s 0
      | some r =>
        let s := s.writeLive w.core (r.key + 56) 8 (bits x 63 14 * 64) (s.reachable w.core (r.key + 56))
        let y := 1 + (bits x 13 2 + 1) * 4 + bits r.ea.toNat 55 6 * 2 ^ 14 + x / 2 ^ 64 % 2 ^ 64 * 2 ^ 64
        let s := s.noteRecord r.key (match t.member with | some m => if m.ended then 0 else m.graph | none => 0)
        say (s.writeLive w.core a.key 16 y live) 0
  | 2 | 3 =>
    match s.resolve w.core w.slot t.asid.toNat t.pgroot.toNat a.key x op arg live with
    | (true, s) => say s 0
    | (false, s) => s.refuse w 0x50 a.ea.toNat 0
  | 4 => say (acquire s) (x / 2 ^ 64)
  | _ => say (acquire s) (x % 2 ^ 64)

/-- Follows addresses from memory at a moment when nothing is held at a channel, or nothing that was held there before the follower: a
list, or the tables of a graph (R239, log 81). -/
def followStep (s : State) (since : Option Nat) (k : State → Out) : Out := if s.sharesFree since then k s else .fault .noSuchEvent

/-- A future operation, once both homes may be reached (R196, R303). -/
def performFut (s : State) (w : Work) (op : Nat) (a : Access) (arg : Word) (rec : Option Access) : Out :=
  atHome s w a fun s =>
    (if op = 2 ∨ op = 3 then followStep s w.heldSince else fun k => k s) fun s =>
    match rec with
    | some r => homeStep s w { r with key := r.key + 56, n := 8 } fun s =>
      .next ((s.touch (r.key + 56)).performFuture w op a arg rec)
    | none => .next (s.performFuture w op a arg rec)

/-! ## Monitors (R258) -/

/-- A monitor is registered at its granule's home, which reports it; a registration whose path is lost is dropped (R297). -/
def performArm (s : State) (w : Work) (num key : Nat) : Out :=
  homeStep s w ⟨key, 64, if isScratch key then .scratch else .home, 0, []⟩ fun s =>
    let t := s.threadAt w.core w.slot
    let s := if s.arrives w.core w.home key then
        s.setThreadAt w.core w.slot { t with monitors := t.monitors.map (fun m =>
          if m.num = num ∧ m.key = key then { m with registered := true } else m) }
      else s.countDropM w.core
    .next ((s.dropWork w.id).answer w (.answered 0))

/-! ## Full/empty accesses (R109, R142) -/

/-- The bit is as a full/empty access waits for it (R109). -/
def State.bitReady (s : State) (op : FeOp) (key : Nat) : Bool :=
  match op with
  | .ldFe | .ldFf => s.isFull key
  | .stEf => !s.isFull key
  | .stF => true

/-- A full/empty access that has arrived may be performed: its bit is as it waits for it, what its release waits for is done, and so are
its thread's earlier accesses to its word that wait still (R72). -/
def State.feReady (s : State) (w : Work) (op : FeOp) (key : Nat) : Bool :=
  s.bitReady op key && s.gone w.deps && w.flush.isNone &&
  !s.work.any (fun x => x.issuedBefore w && x.request && !x.isFe && x.body.accesses && x.touches key 8)

/-- A full/empty access is performed (R109); a load of a home outside its cluster lets the thread use no older fill. -/
def State.performFe (s : State) (w : Work) (op : FeOp) (a : Access) (dst : Dst) (data : Word) : State :=
  match op with
  | .ldFe | .ldFf =>
    let (x, bad, s) := s.readHome w.core a.key 8
    let s := if op = .ldFe then s.setFull a.key false else s
    let s := if clusterOf (coreOfKey a.key) = clusterOf w.core then s
      else s.onThread w (fun t => { t with acquired := s.tick })
    s.toRet w dst (BitVec.ofNat 512 x) (if bad || w.link == .corrupt then some a.ea else none) 0
  | .stEf | .stF => ((s.writeHome a.key 8 data.toNat (bytesMask 8)).setFull a.key true).dropWork w.id

/-- The scratchpad bank that holds a key now, of 16 KiB (R186). -/
def State.bankAt (s : State) (key : Nat) : Nat := s.fwd key / 2 ^ 14

/-- Inserts an item in the order of arrival. -/
def insertArrival (w : Work) : List Work → List Work
  | [] => [w]
  | x :: r => if w.arrived.getD 0 < x.arrived.getD 0 then w :: x :: r else x :: insertArrival w r

/-- The waiting accesses that a bank holds: the 64 that arrived first; any more are held at its input (R142). -/
def State.waitList (s : State) (bank : Nat) : List Work :=
  ((s.work.filter (fun w =>
    match w.body with
    | .fe _ a .. => w.arrived.isSome && s.bankAt a.key == bank
    | _ => false)).foldl (fun l w => insertArrival w l) []).take 64

/-- The waiting access that a bank serves next: the earliest that may be performed (R142), and none between the lanes of a sibling
(R183). -/
def State.nextWaiter (s : State) (bank : Nat) : Option Work :=
  (s.waitList bank).find? (fun w => match w.body with | .fe op a .. => s.feReady w op a.key && !s.betweenLanes w | _ => false)

/-- Wait-list service: the bank performs waiting accesses until none can be (R142). -/
def State.serveBank (s : State) (bank : Nat) : Nat → State
  | 0 => s
  | n + 1 =>
    match s.nextWaiter bank with
    | none => s
    | some w =>
      match w.body with
      | .fe op a dst data => (s.performFe w op a dst data).serveBank bank n
      | _ => s

/-- Adds a withdrawn item in the order in which its thread's items issued. -/
def addWithdrawn (x : Work) : List Work → List Work
  | [] => [x]
  | y :: r => if x.id < y.id then x :: y :: r else y :: addWithdrawn x r

/-- An item and the later ones of its thread that wait for it, each in turn. A pass in the order of issue finds them all. -/
def State.withDependents (s : State) (w : Work) : List Work :=
  (s.work.foldl (fun l x => addWithdrawn x l) []).foldl (fun l x =>
    if x.id = w.id || (x.of w.core w.slot && l.any (fun y => x.deps.contains y.id || y.beforeCommand x)) then l ++ [x] else l) []

/-- A waiting access of a stopped thread is withdrawn and kept in its context, and with it what may not be performed before it
(R109, R111, R137), its later bank commands among them (R223, log 113). DESIGN CHOICE (log 91): an access whose destination is a queue keeps its reserved entry there; R137 keeps the access
pending, and R139 lets no reserved entry outlast a stop. -/
def State.keepWithdrawn (s : State) (w : Work) : State :=
  let l := s.withDependents w
  let s := s.onThread w (fun t => { t with withdrawn := l.foldl (fun a x => addWithdrawn x a) t.withdrawn })
  { s with work := s.work.filter (fun x => l.all (fun y => y.id != x.id)) }

/-- A stop of the thread has been requested. -/
def Thread.halting (t : Thread) : Bool := t.slot == .stopped || t.stopping.isSome

/-- A full/empty access arrives at its bank: it is performed at once, or joins its word's wait list, from which it is performed when
its turn comes (R142). -/
def execFullEmptyArrival (k : Nat) (s : State) : Out :=
  s.begin k fun w s =>
    match w.body with
    | .fe op a dst data =>
      if s.feReady w op a.key then
        if w.arrived.isSome && (s.nextWaiter (s.bankAt a.key)).map (·.id) != some k then .fault .noSuchEvent
        else .next ((s.performFe w op a dst data).serveBank (s.bankAt a.key) s.work.length)
      else if w.arrived.isSome then .fault .noSuchEvent
      else if op ≠ .stF ∧ (s.threadAt w.core w.slot).halting then .next (s.keepWithdrawn w)
      else .next (s.replaceWork { w with arrived := some s.tick })
    | _ => .fault .noSuchEvent

/-! ## Returns, write-backs, messages and fetches -/

/-- The 8-byte words of a result as its destination takes it. -/
def Dst.words (d : Dst) : Nat := match d with | .v _ mask => if mask = 0xFFFF then 8 else 1 | _ => 1

/-- A result whose data the links have spoilt on its way arrives as zero and is counted, and so is a corrected error (R121, R122,
log 101): the value, its flags and the address of the data, a free value where the item names none. -/
def State.linkResult (s : State) (w : Work) (dst : Dst) (val : VWord) (bad : Option Word) (flags : FFlags) :
    (VWord × Option Word × FFlags) × State :=
  match w.link with
  | .clean => ((val, bad, flags), s)
  | .corrected => ((val, bad, flags), s.countCorr w.core 1)
  | .corrupt =>
    let s := s.countUnc w.core dst.words
    match bad with
    | some a => ((0, some a, 0), s)
    | none => let (a, s) := s.draw; ((0, some (BitVec.ofNat 64 a), 0), s)

/-- A result returns and is written (R24, R139); one that carries uncorrectable data traps before its thread's next
instruction (R122). -/
def execLoadReturn (k : Nat) (s : State) : Out :=
  match s.findWork k with
  | none => .fault .noSuchEvent
  | some w =>
    match w.body with
    | .ret dst val bad flags _ =>
      let ((val, bad, flags), s) := s.linkResult w dst val bad flags
      let s := (s.performedAcquire w).setCore w.core ((s.core w.core).deliver w.slot dst val)
      let s := s.onThread w (fun t =>
        let t := t.addFlags flags
        let t := if w.acquire then { t with acquired := s.tick } else t
        if s.etrap w.core then { t with errTrap := t.errTrap.orElse fun _ => bad.map (·, w.pc, false) } else t)
      .next ((s.dropWork k).settle w.core w.slot)
    | _ => .fault .noSuchEvent

/-- A write-back reaches its home, which writes its masked bytes as one indivisible step (R194). -/
def execWriteBack (k : Nat) (s : State) : Out :=
  s.begin k fun w s =>
    match w.body with
    | .writeBack .. => regionStep s w fun s => .next (s.performWriteBack w)
    | _ => .fault .noSuchEvent

/-- A sector leaves its cluster's cache: it is written back and then emptied (R194). -/
def execEviction (cluster sector : Nat) (s : State) : Out :=
  match (s.cluster cluster).sector sector with
  | none => .fault .noSuchEvent
  | some x => .next ((s.startWriteBack cluster x).emptySector cluster x.key)

/-- A message reaches its core: it enters the mailbox, or waits at the core's input (R144, R261). A corrupted one is
dropped and counted at its sender (R122). -/
def execMessageArrival (k : Nat) (s : State) : Out :=
  s.begin k fun w s =>
    match w.body with
    | .msg dest m =>
      if w.link = .corrupt then .next ((s.dropWork k).countDropM w.core)
      else
        let c := s.core (s.coreAt dest)
        .next ((s.dropWork k).setCore (s.coreAt dest) ({ c with inbox := c.inbox ++ [m] }).fillMailbox)
    | _ => .fault .noSuchEvent

/-- An instruction block returns from its home and fills the three levels (R105, R197): zeros where the path is lost or the links have
spoilt it (R122, R297). Its thread's stall lasts until it has its words (R342). -/
def execFetchReturn (k : Nat) (s : State) : Out :=
  match s.findWork k with
  | none => .fault .noSuchEvent
  | some w =>
    match w.body with
    | .fetch key _ =>
      if !s.readTurn [(key, 64)] then .fault .noSuchEvent else
      let s := if w.link = .corrected then s.countCorr w.core 1 else s
      let (x, s) := if s.arrives w.core w.home key && w.link != .corrupt then
          ((s.touch key).applyNow [(key, 64)]).readLive w.core key 64 true
        else (0, s.countUnc w.core 8)
      let filled := [w.core, 0x1000 + clusterOf w.core, 0x2000 + dieOf w.core]
      let s := { s with iparity := s.iparity.filter (fun p => !(p.2 == key && filled.contains p.1)) }
      let b : Nat × VWord := (key, BitVec.ofNat 512 x)
      let put (l : List (Nat × VWord)) : List (Nat × VWord) := b :: l.filter (·.1 != key)
      let c := s.core w.core
      let s := s.setCore w.core { c with icache := put c.icache }
      let cl := s.cluster (clusterOf w.core)
      let s := s.setCluster (clusterOf w.core) { cl with icache := put cl.icache }
      let d := s.die (dieOf w.core)
      let s := s.setDie (dieOf w.core) { d with icache := put d.icache }
      .next (s.dropWork k)
    | _ => .fault .noSuchEvent

end Sys2Proof.Machine
end

