-- ==== Sys2Proof/Machine/Vector.lean ====
section
/-! DEFINITION. The vector instructions that stay inside the core (12 R165-R179, 11 R164). -/

set_option Elab.async false

namespace Sys2Proof.Machine

open Sys2Proof

/-- Every lane enabled. -/
def allLanes : MWord := BitVec.allOnes 16

/-- Runs a lane function over the active lanes in increasing order, k draws for each; an inactive lane gives
zero and no flag (R11, R166). -/
def runLanes (mask : MWord) (k : Nat) (f : Nat → List Nat → Lane × FFlags) : List Nat → List Nat → List Lane × FFlags
  | _, [] => ([], 0)
  | ds, i :: r =>
    if mask.getLsbD i then
      let (x, g) := f i (ds.take k)
      let (l, h) := runLanes mask k f (ds.drop k) r
      (x :: l, g ||| h)
    else let (l, h) := runLanes mask k f ds r; (0 :: l, h)

/-- The lane numbers. -/
def laneNums : List Nat := List.range 16

/-- A lane function run over a mask, with k draws a lane under SR (R157, R166). -/
def State.lanes (s : State) (mask : MWord) (k : Nat) (mode : Mode) (f : Nat → List Nat → Lane × FFlags) :
    VWord × FFlags × State :=
  let (ds, s) := s.drawsFor mode (k * popCount mask.toNat 16)
  let (l, g) := runLanes mask k f ds laneNums
  (ofLanes l, g, s)

/-- A vector A3 instruction of two sources (R165-R167): `draws` SR steps an active lane. -/
def vector2 (d a b : Opd) (m : BitVec 3) (long : Bool) (draws : Nat)
    (f : Mode → Lane → Lane → List Nat → Lane × FFlags) (s : State) : Out :=
  let us : List Use := [⟨.vector, .dst, d⟩, ⟨.vector, .src, a⟩, ⟨.vector, .src, b⟩]
  withOperands us s fun s0 =>
    let (x, s) := s0.readV a
    let (y, s) := s.readV b
    let mask := s.maskOf m
    let (r, g, s) := s.lanes mask draws s.mode (fun i ds => f s.mode (lane x i) (lane y i) ds)
    withFlags s0 s g fun s => .next (s.resultV d mask r (long || popsAny us)).complete

/-- A vector A3 instruction of one source. -/
def vector1 (d a : Opd) (m : BitVec 3) (long : Bool) (draws : Nat)
    (f : Mode → Lane → List Nat → Lane × FFlags) (s : State) : Out :=
  let us : List Use := [⟨.vector, .dst, d⟩, ⟨.vector, .src, a⟩]
  withOperands us s fun s0 =>
    let (x, s) := s0.readV a
    let mask := s.maskOf m
    let (r, g, s) := s.lanes mask draws s.mode (fun i ds => f s.mode (lane x i) ds)
    withFlags s0 s g fun s => .next (s.resultV d mask r (long || popsAny us)).complete

/-- A vector A4 instruction of three sources: every lane, no mask (R169). -/
def vector3 (d a b c : Opd) (f : Mode → Lane → Lane → Lane → List Nat → Lane × FFlags) (s : State) : Out :=
  let us : List Use := [⟨.vector, .dst, d⟩, ⟨.vector, .src, a⟩, ⟨.vector, .src, b⟩, ⟨.vector, .src, c⟩]
  withOperands us s fun s0 =>
    let (x, s) := s0.readV a
    let (y, s) := s.readV b
    let (z, s) := s.readV c
    let (r, g, s) := s.lanes allLanes 1 s.mode (fun i ds => f s.mode (lane x i) (lane y i) (lane z i) ds)
    withFlags s0 s g fun s => .next (s.resultV d allLanes r (popsAny us)).complete

/-- A value rounded to an FP32 lane under a mode. -/
def roundLane (mode : Mode) (ds : List Nat) (v : Val × FFlags) : Lane × FFlags :=
  let (c, g) := round fp32 mode false (ds.headD 0) v.1
  (BitVec.ofNat 32 c, v.2 ||| g)

/-- A floating lane operation of two sources, rounded under RM. -/
def vfloat2 (d a b : Opd) (m : BitVec 3) (long : Bool) (f : Mode → Val → Val → Val × FFlags) (s : State) : Out :=
  vector2 d a b m long 1 (fun mode x y ds => roundLane mode ds (f mode (f32 x) (f32 y))) s

/-- A transcendental of one source, rounded under RNE whatever RM holds (R168). -/
def vtrans (d a : Opd) (m : BitVec 3) (f : Val → Val × FFlags) (s : State) : Out :=
  vector1 d a m true 0 (fun _ x ds => roundLane .rne ds (f (f32 x))) s

/-- An integer lane operation of two sources: no flag (R170). -/
def vint2 (d a b : Opd) (m : BitVec 3) (f : Lane → Lane → Lane) (s : State) : Out :=
  vector2 d a b m false 0 (fun _ x y _ => (f x y, 0)) s

/-- Bits(Y, 4, 0) (R170). -/
def laneShift (y : Lane) : Nat := y.toNat % 32

/-- A packed floating operation on the two 16-bit elements of a lane (R171). -/
def packed16 (fmt : Fmt) (f : Mode → Val → Val → Val × FFlags) (mode : Mode) (x y : Lane) (ds : List Nat) :
    Lane × FFlags :=
  let el (k : Nat) : Nat × FFlags :=
    let v := f mode (decode fmt (bits x.toNat (16 * k + 15) (16 * k))) (decode fmt (bits y.toNat (16 * k + 15) (16 * k)))
    let (c, g) := round fmt mode false (ds.getD k 0) v.1
    (c, v.2 ||| g)
  (BitVec.ofNat 32 ((el 0).1 + 2 ^ 16 * (el 1).1), (el 0).2 ||| (el 1).2)

/-- A saturating packed integer operation on elements of w bits (R171). -/
def packedInt (w : Nat) (f : Int → Int → Int) (x y : Lane) : Lane :=
  let lo : Int := -(2 ^ (w - 1) : Nat)
  let hi : Int := (2 ^ (w - 1) : Nat) - 1
  let el (k : Nat) : Nat :=
    wrap (max lo (min hi (f (sext (bits x.toNat (w * k + w - 1) (w * k)) w) (sext (bits y.toNat (w * k + w - 1) (w * k)) w)))) w
  BitVec.ofNat 32 (packCodes w ((List.range (32 / w)).map el))

/-- vadd (R167). -/
def execVadd (d a b : Opd) (m : BitVec 3) (s : State) : Out := vfloat2 d a b m false addV s
/-- vsub (R167). -/
def execVsub (d a b : Opd) (m : BitVec 3) (s : State) : Out := vfloat2 d a b m false (fun r x y => addV r x y.negate) s
/-- vmul (R167). -/
def execVmul (d a b : Opd) (m : BitVec 3) (s : State) : Out := vfloat2 d a b m false (fun _ x y => mulV x y) s
/-- vmin (R167). -/
def execVmin (d a b : Opd) (m : BitVec 3) (s : State) : Out :=
  vector2 d a b m false 0 (fun _ x y _ => minmax false x y) s
/-- vmax (R167). -/
def execVmax (d a b : Opd) (m : BitVec 3) (s : State) : Out :=
  vector2 d a b m false 0 (fun _ x y _ => minmax true x y) s
/-- vdiv (R167). -/
def execVdiv (d a b : Opd) (m : BitVec 3) (s : State) : Out := vfloat2 d a b m true (fun _ x y => divV x y) s
/-- vsqrt (R167). -/
def execVsqrt (d a : Opd) (m : BitVec 3) (s : State) : Out :=
  vector1 d a m true 1 (fun mode x ds => roundLane mode ds (sqrtV (f32 x))) s
/-- vabs (R167). -/
def execVabs (d a : Opd) (m : BitVec 3) (s : State) : Out :=
  vector1 d a m false 0 (fun _ x _ => (x &&& 0x7FFFFFFF, 0)) s
/-- vneg (R167). -/
def execVneg (d a : Opd) (m : BitVec 3) (s : State) : Out :=
  vector1 d a m false 0 (fun _ x _ => (x ^^^ 0x80000000, 0)) s
/-- vexp2 (R168). -/
def execVexp2 (d a : Opd) (m : BitVec 3) (s : State) : Out := vtrans d a m exp2V s
/-- vlog2 (R168). -/
def execVlog2 (d a : Opd) (m : BitVec 3) (s : State) : Out := vtrans d a m log2V s
/-- vrcp (R168). -/
def execVrcp (d a : Opd) (m : BitVec 3) (s : State) : Out := vtrans d a m rcpV s
/-- vrsq (R168). -/
def execVrsq (d a : Opd) (m : BitVec 3) (s : State) : Out := vtrans d a m rsqV s
/-- vfma (R169). -/
def execVfma (d a b c : Opd) (s : State) : Out :=
  vector3 d a b c (fun mode x y z ds => roundLane mode ds (fmaV mode (f32 x) (f32 y) (f32 z))) s
/-- vfnma: z − x × y (R169). -/
def execVfnma (d a b c : Opd) (s : State) : Out :=
  vector3 d a b c (fun mode x y z ds => roundLane mode ds (fmaV mode (f32 x).negate (f32 y) (f32 z))) s
/-- vadd.i (R170). -/
def execVaddI (d a b : Opd) (m : BitVec 3) (s : State) : Out := vint2 d a b m (fun x y => x + y) s
/-- vsub.i (R170). -/
def execVsubI (d a b : Opd) (m : BitVec 3) (s : State) : Out := vint2 d a b m (fun x y => x - y) s
/-- vmul.i (R170). -/
def execVmulI (d a b : Opd) (m : BitVec 3) (s : State) : Out := vint2 d a b m (fun x y => x * y) s
/-- vand (R170). -/
def execVand (d a b : Opd) (m : BitVec 3) (s : State) : Out := vint2 d a b m (fun x y => x &&& y) s
/-- vor (R170). -/
def execVor (d a b : Opd) (m : BitVec 3) (s : State) : Out := vint2 d a b m (fun x y => x ||| y) s
/-- vxor (R170). -/
def execVxor (d a b : Opd) (m : BitVec 3) (s : State) : Out := vint2 d a b m (fun x y => x ^^^ y) s
/-- vshl (R170). -/
def execVshl (d a b : Opd) (m : BitVec 3) (s : State) : Out := vint2 d a b m (fun x y => x <<< laneShift y) s
/-- vshr (R170). -/
def execVshr (d a b : Opd) (m : BitVec 3) (s : State) : Out := vint2 d a b m (fun x y => x >>> laneShift y) s
/-- vsra (R170). -/
def execVsra (d a b : Opd) (m : BitVec 3) (s : State) : Out := vint2 d a b m (fun x y => x.sshiftRight (laneShift y)) s
/-- vmin.i (R170). -/
def execVminI (d a b : Opd) (m : BitVec 3) (s : State) : Out :=
  vint2 d a b m (fun x y => if x.toInt ≤ y.toInt then x else y) s
/-- vmax.i (R170). -/
def execVmaxI (d a b : Opd) (m : BitVec 3) (s : State) : Out :=
  vint2 d a b m (fun x y => if x.toInt ≤ y.toInt then y else x) s
/-- vminu (R170). -/
def execVminu (d a b : Opd) (m : BitVec 3) (s : State) : Out :=
  vint2 d a b m (fun x y => if x.toNat ≤ y.toNat then x else y) s
/-- vmaxu (R170). -/
def execVmaxu (d a b : Opd) (m : BitVec 3) (s : State) : Out :=
  vint2 d a b m (fun x y => if x.toNat ≤ y.toNat then y else x) s
/-- vandn (R170). -/
def execVandn (d a b : Opd) (m : BitVec 3) (s : State) : Out := vint2 d a b m (fun x y => x &&& ~~~y) s
/-- vadd.bf (R171). -/
def execVaddBf (d a b : Opd) (m : BitVec 3) (s : State) : Out := vector2 d a b m false 2 (packed16 bf16 addV) s
/-- vmul.bf (R171). -/
def execVmulBf (d a b : Opd) (m : BitVec 3) (s : State) : Out :=
  vector2 d a b m false 2 (packed16 bf16 (fun _ x y => mulV x y)) s
/-- vadd.hf (R171). -/
def execVaddHf (d a b : Opd) (m : BitVec 3) (s : State) : Out := vector2 d a b m false 2 (packed16 fp16 addV) s
/-- vmul.hf (R171). -/
def execVmulHf (d a b : Opd) (m : BitVec 3) (s : State) : Out :=
  vector2 d a b m false 2 (packed16 fp16 (fun _ x y => mulV x y)) s
/-- vadd.i16 (R171). -/
def execVaddI16 (d a b : Opd) (m : BitVec 3) (s : State) : Out := vint2 d a b m (packedInt 16 (fun x y => x + y)) s
/-- vsub.i16 (R171). -/
def execVsubI16 (d a b : Opd) (m : BitVec 3) (s : State) : Out := vint2 d a b m (packedInt 16 (fun x y => x - y)) s
/-- vadd.i8 (R171). -/
def execVaddI8 (d a b : Opd) (m : BitVec 3) (s : State) : Out := vint2 d a b m (packedInt 8 (fun x y => x + y)) s
/-- vsub.i8 (R171). -/
def execVsubI8 (d a b : Opd) (m : BitVec 3) (s : State) : Out := vint2 d a b m (packedInt 8 (fun x y => x - y)) s

/-- A compare: the active lanes set their bit of mask d, the others keep theirs (R172). -/
def vcompare (d a b : Opd) (m : BitVec 3) (f : Lane → Lane → Bool × FFlags) (s : State) : Out :=
  let us : List Use := [⟨.mask, .dst, d⟩, ⟨.vector, .src, a⟩, ⟨.vector, .src, b⟩]
  withOperands us s fun s0 =>
    let (x, s) := s0.readV a
    let (y, s) := s.readV b
    let mask := s.maskOf m
    let (r, g, s) := s.lanes mask 0 .rne (fun i _ => let (c, g) := f (lane x i) (lane y i); (if c then 1 else 0, g))
    let new : MWord := BitVec.ofNat 16 (packCodes 1 ((lanes r).map (·.toNat)))
    withFlags s0 s g fun s =>
      .next (s.resultM d ((vget s.src.m d.toNat 0 &&& ~~~mask) ||| (new &&& mask)) (popsAny us)).complete

/-- vcmp.eq (R172). -/
def execVcmpEq (d a b : Opd) (m : BitVec 3) (s : State) : Out := vcompare d a b m cmpEqF s
/-- vcmp.lt (R172). -/
def execVcmpLt (d a b : Opd) (m : BitVec 3) (s : State) : Out := vcompare d a b m cmpLtF s
/-- vcmp.le (R172). -/
def execVcmpLe (d a b : Opd) (m : BitVec 3) (s : State) : Out := vcompare d a b m cmpLeF s
/-- vcmp.un (R172). -/
def execVcmpUn (d a b : Opd) (m : BitVec 3) (s : State) : Out := vcompare d a b m cmpUnF s
/-- vcmp.eq.i (R172). -/
def execVcmpEqI (d a b : Opd) (m : BitVec 3) (s : State) : Out := vcompare d a b m (fun x y => (x == y, 0)) s
/-- vcmp.lt.i (R172). -/
def execVcmpLtI (d a b : Opd) (m : BitVec 3) (s : State) : Out := vcompare d a b m (fun x y => (x.slt y, 0)) s
/-- vcmp.ltu (R172). -/
def execVcmpLtu (d a b : Opd) (m : BitVec 3) (s : State) : Out := vcompare d a b m (fun x y => (x.ult y, 0)) s

/-- vsel: every lane, by the bits of mask c (R173). -/
def execVsel (d a b c : Opd) (s : State) : Out :=
  let us : List Use := [⟨.vector, .dst, d⟩, ⟨.vector, .src, a⟩, ⟨.vector, .src, b⟩]
  withOperands us s fun s =>
    let (x, s) := s.readV a
    let (y, s) := s.readV b
    .next (s.resultV d allLanes (mergeLanes (s.readM c) x y) (popsAny us)).complete

/-- mand (R174). -/
def execMand (d a b : Opd) (s : State) : Out := .next (s.writeM d (s.readM a &&& s.readM b)).complete
/-- mor (R174). -/
def execMor (d a b : Opd) (s : State) : Out := .next (s.writeM d (s.readM a ||| s.readM b)).complete
/-- mnot (R174). -/
def execMnot (d a : Opd) (s : State) : Out := .next (s.writeM d (~~~(s.readM a))).complete
/-- mpopc (R174). -/
def execMpopc (d a : Opd) (s : State) : Out :=
  withOperands [⟨.scalar, .dst, d⟩] s fun s =>
    .next (s.resultS d (BitVec.ofNat 64 (popCount (s.readM a).toNat 16)) false).complete

/-- vperm (R175). -/
def execVperm (d a b : Opd) (m : BitVec 3) (s : State) : Out :=
  let us : List Use := [⟨.vector, .dst, d⟩, ⟨.vector, .src, a⟩, ⟨.vector, .src, b⟩]
  withOperands us s fun s =>
    let (x, s) := s.readV a
    let (y, s) := s.readV b
    let mask := s.maskOf m
    let (r, _, s) := s.lanes mask 0 .rne (fun i _ => (lane x ((lane y i).toNat % 16), 0))
    .next (s.resultV d mask r (popsAny us)).complete

/-- vbcast (R175). -/
def execVbcast (d a : Opd) (m : BitVec 3) (s : State) : Out :=
  let us : List Use := [⟨.vector, .dst, d⟩, ⟨.scalar, .src, a⟩]
  withOperands us s fun s =>
    let (x, s) := s.readS a
    let mask := s.maskOf m
    let (r, _, s) := s.lanes mask 0 .rne (fun _ _ => (low32 x, 0))
    .next (s.resultV d mask r (popsAny us)).complete

/-- vins: lane n, if it is active (R175). -/
def execVins (d a : Opd) (n : BitVec 6) (m : BitVec 3) (s : State) : Out :=
  let us : List Use := [⟨.vector, .both, d⟩, ⟨.scalar, .src, a⟩]
  withOperands us s fun s =>
    let (x, s) := s.readS a
    let mask : MWord := s.maskOf m &&& ((1 : MWord) <<< n.toNat)
    .next (s.resultV d mask (ofLanes (List.replicate 16 (low32 x))) (popsAny us)).complete

/-- vext (R175). -/
def execVext (d a : Opd) (n : BitVec 6) (s : State) : Out :=
  let us : List Use := [⟨.scalar, .dst, d⟩, ⟨.vector, .src, a⟩]
  withOperands us s fun s =>
    let (x, s) := s.readV a
    .next (s.resultS d ((lane x n.toNat).setWidth 64) (popsAny us)).complete

/-- One level of the reduction tree: neighbours combined (R164). -/
def pairUp (f : Lane → Lane → Lane × FFlags) : List Lane → List Lane × FFlags
  | x :: y :: r => let (z, g) := f x y; let (l, h) := pairUp f r; (z :: l, g ||| h)
  | l => (l, 0)

/-- The reduction tree of sixteen lanes (R164). -/
def reduceTree (f : Lane → Lane → Lane × FFlags) (l : List Lane) : Lane × FFlags :=
  let (a, g) := pairUp f l
  let (b, h) := pairUp f a
  let (c, i) := pairUp f b
  let (d, j) := pairUp f c
  (d.headD 0, g ||| h ||| i ||| j)

/-- vred: the lanes of a reduced under the mask, inactive lanes at the identity (R164, R176). -/
def vreduce (d a : Opd) (m : BitVec 3) (ident : Lane) (f : Lane → Lane → Lane × FFlags) (s : State) : Out :=
  let us : List Use := [⟨.scalar, .dst, d⟩, ⟨.vector, .src, a⟩]
  withOperands us s fun s0 =>
    let (x, s) := s0.readV a
    let mask := s.maskOf m
    let (r, g) := reduceTree f (laneNums.map (fun i => if mask.getLsbD i then lane x i else ident))
    withFlags s0 s g fun s => .next (s.resultS d (r.setWidth 64) (popsAny us)).complete

/-- FP32 addition under RNE on lanes (R164). -/
def addRne (x y : Lane) : Lane × FFlags := roundLane .rne [] (addV .rne (f32 x) (f32 y))

/-- vred.add (R176). -/
def execVredAdd (d a : Opd) (m : BitVec 3) (s : State) : Out := vreduce d a m 0x80000000 addRne s
/-- vred.max (R176). -/
def execVredMax (d a : Opd) (m : BitVec 3) (s : State) : Out := vreduce d a m 0xFF800000 (minmax true) s
/-- vred.min (R176). -/
def execVredMin (d a : Opd) (m : BitVec 3) (s : State) : Out := vreduce d a m 0x7F800000 (minmax false) s

/-- vcvt.up: decodes a packed operand, each active lane rounded to FP32 under RM (R177, R178). -/
def execVcvtUp (d a : Opd) (f : BitVec 6) (m : BitVec 3) (s : State) : Out :=
  let us : List Use := [⟨.vector, .dst, d⟩, ⟨.vector, .src, a⟩]
  withOperands us s fun s0 =>
    let (x, s) := s0.readV a
    let mask := s.maskOf m
    let efmt := elemCode f.toNat
    let w := widthOf f.toNat
    let val (i : Nat) : Val :=
      match familyOf f.toNat with
      | some fam => blockVal efmt fam.scale (x.toNat % 256) ((x.toNat >>> (8 + w * i)) % 2 ^ w)
      | none => blockVal efmt 0 0 ((x.toNat >>> (w * i)) % 2 ^ w)
    let (r, g, s) := s.lanes mask 1 s.mode (fun i ds => roundLane s.mode ds (val i, 0))
    withFlags s0 s g fun s => .next (s.resultV d mask r (popsAny us)).complete

/-- A narrowing conversion under a mode and saturation flag (R179). -/
def vnarrow (d a : Opd) (f : BitVec 6) (m : BitVec 3) (mode : Mode) (sat : Bool) (s : State) : Out :=
  let us : List Use := [⟨.vector, .both, d⟩, ⟨.vector, .src, a⟩]
  withOperands us s fun s0 =>
    let (x, s) := s0.readV a
    let efmt := elemCode f.toNat
    let w := widthOf f.toNat
    let old := if d.isQueue then 0 else (vget s.src.v d.toNat 0).toNat
    match familyOf f.toNat with
    | some fam =>
      let (ds, s) := s.drawsFor mode 16
      let (sc, cs, g) := encodeBlock efmt fam.scale mode sat ds ((lanes x).map f32)
      let len := 8 + 16 * w
      let new := sc + 256 * packCodes w cs + old / 2 ^ len * 2 ^ len
      withFlags s0 s g fun s => .next (s.resultV d allLanes (BitVec.ofNat 512 new) (popsAny us)).complete
    | none =>
      let mask := s.maskOf m
      let fmt := (fmtOf efmt).getD fp32
      let (r, g, s) := s.lanes mask 1 mode (fun i ds =>
        let (c, g) := round fmt mode sat (ds.headD 0) (f32 (lane x i)); (BitVec.ofNat 32 c, g))
      let keep (i : Nat) : Nat := if mask.getLsbD i then (lane r i).toNat else (old >>> (w * i)) % 2 ^ w
      let new := packCodes w (laneNums.map keep) + old / 2 ^ (16 * w) * 2 ^ (16 * w)
      withFlags s0 s g fun s => .next (s.resultV d allLanes (BitVec.ofNat 512 new) (popsAny us)).complete

/-- vcvt.dn (R179). -/
def execVcvtDn (d a : Opd) (f : BitVec 6) (m : BitVec 3) (s : State) : Out := vnarrow d a f m s.mode false s
/-- vcvt.dn.sat (R179). -/
def execVcvtDnSat (d a : Opd) (f : BitVec 6) (m : BitVec 3) (s : State) : Out := vnarrow d a f m s.mode true s
/-- vcvt.dn.sr (R179). -/
def execVcvtDnSr (d a : Opd) (f : BitVec 6) (m : BitVec 3) (s : State) : Out := vnarrow d a f m .sr false s
/-- vcvt.dn.sr.sat (R179). -/
def execVcvtDnSrSat (d a : Opd) (f : BitVec 6) (m : BitVec 3) (s : State) : Out := vnarrow d a f m .sr true s
/-- vcvt.dn.rtz (R179). -/
def execVcvtDnRtz (d a : Opd) (f : BitVec 6) (m : BitVec 3) (s : State) : Out := vnarrow d a f m .rtz false s

end Sys2Proof.Machine
end

