-- ==== Sys2Proof/Machine/Bank.lean ====
section
/-! DEFINITION. Bank units: their commands at issue and line by line at their bank (15 R215-R223). -/

set_option Elab.async false

namespace Sys2Proof.Machine

open Sys2Proof

/-! ## Issue (R215-R217, R221) -/

/-- A bank address of the issuing core through window 0, aligned, or its cause (R215). -/
def State.bankAddress (s : State) (ea : Word) (align : Nat) : Except Nat Nat :=
  if ea.toNat / 2 ^ 56 = 0 then .error 0x15
  else
    match s.place ea.toNat s.src.seg (· == 0) with
    | .error e => .error e
    | .ok p =>
      if p.core ≠ s.curCore then .error 0x15
      else if ea.toNat % align ≠ 0 then .error 0x13
      else .ok (scratchKey p.core p.loc)

/-- The control word's fields that a command does not use are zero, and no reserved bit is set (R216, R217). -/
def ctlOk (fn : Nat) (c : Nat) : Bool :=
  bits c 31 24 == 0 && bits c 15 10 == 0 &&
  (fn == 2 || bits c 63 32 == 0) &&
  (fn == 6 || (bits c 23 16 == 0 && !c.testBit 9)) &&
  (decide (fn ≤ 5) || !c.testBit 8) &&
  (fn != 6 || (let f := bits c 23 16; f == 2 || f == 3 || (decide (5 ≤ f) && decide (f ≤ 13))))

/-- The bytes a command writes from D. -/
def bankWrites (fn fmt n : Nat) : Nat := if fn ≤ 5 then 64 * n else if fn = 6 then 2 * widthOf fmt * n else if fn = 7 then 4 else 8

/-- An earlier `mx.st` of the acting thread is to write bytes of a range (R126). -/
def State.arrayWrites (s : State) (key n : Nat) : Bool :=
  s.work.any (fun w => w.of s.curCore s.curSlot &&
    (match w.body with | .mx _ _ (.st ..) => w.holdsBytes key n true | _ => false))

/-- A bank command: it is checked, parks only while its bank's queue is full or for an earlier `mx.st`, and is accepted
(R126, R221, R222). -/
def bankCommand (fn : Nat) (a b c : Opd) (s : State) : Out :=
  withOperands [⟨.scalar, .src, a⟩, ⟨.scalar, .src, b⟩, ⟨.scalar, .src, c⟩] s fun s0 =>
    let (da, s) := s0.readS a
    let (xa, s) := s.readS b
    let (ctl, s) := s.readS c
    let n := ctl.toNat % 256 + 1
    let scal := ctl.toNat.testBit 8
    let fmt := bits ctl.toNat 23 16
    if !ctlOk fn ctl.toNat then .next (s0.trap 0x01 0)
    else
      match s.bankAddress da (if fn ≤ 5 then 64 else if fn = 8 then 8 else 4), (if scal then .ok 0 else s.bankAddress xa 64) with
      | .error e, _ => .next (s0.trap e da)
      | .ok _, .error e => .next (s0.trap e xa)
      | .ok d, .ok x =>
        let bank := d / 2 ^ 14
        if (d + bankWrites fn fmt n - 1) / 2 ^ 14 ≠ bank ∨ (!scal ∧ (x / 2 ^ 14 ≠ bank ∨ (x + 64 * n - 1) / 2 ^ 14 ≠ bank)) then
          .next (s0.trap 0x6D da)
        else if s.arrayWrites d (bankWrites fn fmt n) || (!scal && s.arrayWrites x (64 * n)) then .next s0.park
        else if 8 ≤ (s.work.filter (fun w => match w.body with | .bank _ e .. => e / 2 ^ 14 == bank | _ => false)).length then .next s0.park
        else
          let body : Body := .bank fn d (if scal then none else some x) (low32 xa) (BitVec.ofNat 32 (bits ctl.toNat 63 32)) n fmt
            (ctl.toNat.testBit 9) [] 0 0
          .next (s.addWork { s.item (s.homeOf s.curCore d) [] false body with holds := [(bank * 2 ^ 14, 2 ^ 14, true)] }).complete

/-- bk.add (R217). -/
def execBkAdd (a b c : Opd) (s : State) : Out := bankCommand 0 a b c s
/-- bk.mul (R217). -/
def execBkMul (a b c : Opd) (s : State) : Out := bankCommand 1 a b c s
/-- bk.fma (R217). -/
def execBkFma (a b c : Opd) (s : State) : Out := bankCommand 2 a b c s
/-- bk.max (R217). -/
def execBkMax (a b c : Opd) (s : State) : Out := bankCommand 3 a b c s
/-- bk.min (R217). -/
def execBkMin (a b c : Opd) (s : State) : Out := bankCommand 4 a b c s
/-- bk.fill (R217). -/
def execBkFill (a b c : Opd) (s : State) : Out := bankCommand 5 a b c s
/-- bk.cvt (R218). -/
def execBkCvt (a b c : Opd) (s : State) : Out := bankCommand 6 a b c s
/-- bk.sum (R219). -/
def execBkSum (a b c : Opd) (s : State) : Out := bankCommand 7 a b c s
/-- bk.osm (R220). -/
def execBkOsm (a b c : Opd) (s : State) : Out := bankCommand 8 a b c s

/-! ## Performance (R217-R220, R222) -/

/-- One element of the lane-by-lane commands. -/
def bankLane (fn : Nat) (scal : Bool) (y d x : Lane) : Lane × FFlags :=
  match fn with
  | 0 => rneF32 (addV .rne (f32 d) (f32 x))
  | 1 => rneF32 (mulV (f32 d) (f32 x))
  | 2 => if scal then rneF32 (fmaV .rne (f32 d) (f32 x) (f32 y)) else rneF32 (fmaV .rne (f32 x) (f32 y) (f32 d))
  | 3 => minmax true d x
  | 4 => minmax false d x
  | _ => (x, 0)

/-- One line of the lane-by-lane commands. -/
def bankLine (fn : Nat) (scal : Bool) (y : Lane) (d x : VWord) : VWord × FFlags :=
  let r := ((lanes d).zip (lanes x)).map (fun p => bankLane fn scal y p.1 p.2)
  (ofLanes (r.map (·.1)), (r.map (·.2)).foldl (· ||| ·) 0)

/-- bk.sum from the word at D (R219). -/
def bankSum (t : Lane) (xs : List VWord) : Lane × FFlags :=
  xs.foldl (fun st v =>
    let (x, g) := reduceTree addRne (lanes v)
    let (y, h) := addRne st.1 x
    (y, st.2 ||| g ||| h)) (t, 0)

/-- The greatest of a nonempty list (R100). -/
def maxOf (xs : List Lane) : Lane × FFlags :=
  match xs with
  | [] => (0xFF800000, 0)
  | x :: r => r.foldl (fun st y => let (z, g) := minmax true st.1 y; (z, st.2 ||| g)) (x, 0)

/-- bk.osm: the new pair, or none where it stays as it is (R220). -/
def bankOsm (m sum : Lane) (xs : List VWord) : Option (Lane × Lane) × FFlags :=
  let sub (a b : Lane) : Lane × FFlags := rneF32 (addV .rne (f32 a) (f32 b).negate)
  let (mx, g0) := maxOf (xs.flatMap lanes)
  let (mn, g1) := minmax true m mx
  if mn = 0xFF800000 then (none, 0)
  else
    let (d, g2) := sub m mn
    let (e, g3) := rneF32 (exp2V (f32 d))
    let (t, g4) := rneF32 (mulV (f32 sum) (f32 e))
    let (t, g) := xs.foldl (fun st v =>
      let w := (lanes v).map (fun x => let (y, g) := sub x mn; let (z, h) := rneF32 (exp2V (f32 y)); (z, g ||| h))
      let (x, g) := reduceTree addRne (w.map (·.1))
      let (y, h) := addRne st.1 x
      (y, st.2 ||| (w.map (·.2)).foldl (· ||| ·) 0 ||| g ||| h)) (t, g0 ||| g1 ||| g2 ||| g3 ||| g4)
    (some (mn, t), g)

/-- The command has entered its bank and is the first there: the commands before it have been performed, and its
thread's earlier accesses to the bank, also those that were sent later because they waited for an acquire, have arrived (R222, R223). -/
def State.bankFirst (s : State) (w : Work) (d : Nat) : Bool :=
  (s.before w).all (fun x => match x.body with | .bank _ e .. => e / 2 ^ 14 != d / 2 ^ 14 | _ => true) &&
  s.work.all (fun x => !x.beforeCommand w)

/-- The bytes of D that bk.cvt writes with its line access of a number, in one 64-byte line: where they start and end, from D, and how
many source lines they take; a stream is m bytes and there are n of them (R218, R222). -/
def cvtSpan (d m n line : Nat) : Nat × Nat × Nat :=
  let first := (d / 64 + line) * 64
  let lo := max d first - d
  let hi := min (m * n) (first + 64 - d)
  (lo, hi, (hi + m - 1) / m)

/-- The streams that bk.cvt narrows source lines to, one after the other, with their flags (R218). -/
def cvtStreams (fmt : Nat) (sat : Bool) (xs : List VWord) : Nat × FFlags :=
  xs.foldr (fun x acc =>
    let (cs, h) := roundAll ((fmtOf fmt).getD fp32) .rne sat [] ((lanes x).map f32)
    (packCodes (widthOf fmt) cs + acc.1 * 2 ^ (16 * widthOf fmt), acc.2 ||| h)) (0, 0)

/-- A line of bk.cvt as it writes it: the bytes of its span, taken from the streams that have a byte there, with their flags. -/
def cvtLine (fmt : Nat) (sat : Bool) (m lo hi need : Nat) (got : List VWord) : Nat × FFlags :=
  let j := lo / m
  let (z, h) := cvtStreams fmt sat ((got.take need).drop j)
  (z / 2 ^ (8 * (lo - m * j)) % 2 ^ (8 * (hi - lo)), h)

/-- The source lines that a command has read before it makes an access of D: all of them for a reduction, those that have a byte in
the line of D for bk.cvt, else one for each line of D (R222). -/
def linesFirst (fn d fmt n line : Nat) : Nat :=
  if 7 ≤ fn then n else if fn = 6 then (cvtSpan d (2 * widthOf fmt) n line).2.2 else line + 1

/-- A bank command makes its next line access: it reads a source line, or reads, combines and writes a line of D; the
last access of D performs it (R222). Each counts as one (R342). DEDUCED (log 111): bk.cvt packs several source lines into a line of D, or
one across two of them; it reads the source lines that have a byte in a line of D, and then writes that line, once. -/
def execBankCommandPerformed (k : Nat) (s : State) : Out :=
  match s.findWork k with
  | none => .fault .noSuchEvent
  | some w =>
    match w.body with
    | .bank fn d x v y n fmt sat got line g =>
      let go (s : State) (got : List VWord) (line : Nat) (g : FFlags) (last : Bool) : Out :=
        if last then .next ((s.onThread w (·.addFlags g)).dropWork k)
        else .next (s.replaceWork { w with body := .bank fn d x v y n fmt sat got line g })
      let word (z : Nat) : Lane := BitVec.ofNat 32 z
      if !s.bankFirst w d then .fault .noSuchEvent
      else
        let s := s.countEvent w.core 2 1
        match x, decide (got.length < linesFirst fn d fmt n line) with
        | some x, true =>
          let (z, _, s) := s.readHome w.core (x + 64 * got.length) 64
          go s (got ++ [BitVec.ofNat 512 z]) line g false
        | _, _ =>
          let src : VWord := if x.isSome then got[line]?.getD 0 else ofLanes (List.replicate 16 v)
          if fn ≤ 5 then
            let (z, _, s) := s.readHome w.core (d + 64 * line) 64
            let (r, h) := bankLine fn x.isNone y (BitVec.ofNat 512 z) src
            go (s.writeHome (d + 64 * line) 64 r.toNat (bytesMask 64)) got (line + 1) (g ||| h) (line + 1 == n)
          else if fn = 6 then
            let m := 2 * widthOf fmt
            let (lo, hi, need) := cvtSpan d m n line
            let (z, h) := cvtLine fmt sat m lo hi need got
            go (s.writeBytes (d + lo) (hi - lo) z (bytesMask (hi - lo))) got (line + 1) (g ||| h) (hi == m * n)
          else if fn = 7 then
            let (z, _, s) := s.readHome w.core d 4
            let (t, h) := bankSum (word z) got
            go (s.writeHome d 4 t.toNat (bytesMask 4)) got n (g ||| h) true
          else
            let (z, _, s) := s.readHome w.core d 8
            match bankOsm (word z) (word (z / 2 ^ 32)) got with
            | (none, h) => go s got n (g ||| h) true
            | (some (m, t), h) => go (s.writeHome d 8 (m.toNat + t.toNat * 2 ^ 32) (bytesMask 8)) got n (g ||| h) true
    | _ => .fault .noSuchEvent

end Sys2Proof.Machine
end

