-- ==== Sys2Proof/Machine/Branch.lean ====
section
/-! DEFINITION. Branches and jumps (02 R18, R27, 07 R102-R105). -/

set_option Elab.async false

namespace Sys2Proof.Machine

open Sys2Proof

/-- A transfer to a target, with the link written when asked; a misaligned target traps on the transferring
instruction, which then has no other effect (R10, R18). -/
def goTo (s0 s : State) (target : Word) (link : Bool) : Out :=
  if target.toNat % 4 ≠ 0 then .next (s0.trap 0x03 target)
  else
    let s' := if link then s.setThread (s.thread.setS 1 s.nextPc) else s
    .next (s'.jump target)

/-- The target a signed count of words from the instruction or its pair (R26). -/
def State.wordsOn (s : State) (words : Int) : Word := s.pc + BitVec.ofInt 64 (4 * words)

/-- A conditional branch: its operands pop whether or not it is taken (R102). -/
def branch (us : List Use) (read : State → Bool × State) (off : BitVec 9) (s : State) : Out :=
  withOperands us s fun s0 =>
    let (taken, s) := read s0
    if taken then goTo s0 s (s0.wordsOn off.toInt) false else .next s.complete

/-- A branch that compares two scalars (R102). -/
def branchOn (test : Word → Word → Bool) (a b : Opd) (off : BitVec 9) (s : State) : Out :=
  branch [⟨.scalar, .src, a⟩, ⟨.scalar, .src, b⟩] (fun s =>
    let (x, s) := s.readS a
    let (y, s) := s.readS b
    (test x y, s)) off s

/-- b.eq (R102). -/
def execBEq (a b : Opd) (off : BitVec 9) (s : State) : Out := branchOn (fun x y => x == y) a b off s
/-- b.ne (R102). -/
def execBNe (a b : Opd) (off : BitVec 9) (s : State) : Out := branchOn (fun x y => x != y) a b off s
/-- b.lt (R102). -/
def execBLt (a b : Opd) (off : BitVec 9) (s : State) : Out := branchOn (fun x y => decide (x.toInt < y.toInt)) a b off s
/-- b.ge (R102). -/
def execBGe (a b : Opd) (off : BitVec 9) (s : State) : Out := branchOn (fun x y => decide (y.toInt ≤ x.toInt)) a b off s
/-- b.ltu (R102). -/
def execBLtu (a b : Opd) (off : BitVec 9) (s : State) : Out := branchOn (fun x y => decide (x.toNat < y.toNat)) a b off s
/-- b.geu (R102). -/
def execBGeu (a b : Opd) (off : BitVec 9) (s : State) : Out := branchOn (fun x y => decide (y.toNat ≤ x.toNat)) a b off s

/-- A branch on a bit of a scalar (R102). -/
def branchBit (want : Bool) (a : Opd) (n : BitVec 6) (off : BitVec 9) (s : State) : Out :=
  branch [⟨.scalar, .src, a⟩] (fun s =>
    let (x, s) := s.readS a
    (x.getLsbD n.toNat == want, s)) off s

/-- b.bset (R102). -/
def execBBset (a : Opd) (bit : BitVec 6) (off : BitVec 9) (s : State) : Out := branchBit true a bit off s
/-- b.bclr (R102). -/
def execBBclr (a : Opd) (bit : BitVec 6) (off : BitVec 9) (s : State) : Out := branchBit false a bit off s

/-- j (R103). -/
def execJ (off : BitVec 24) (s : State) : Out := goTo s s (s.wordsOn off.toInt) false
/-- jl: s1 receives the address after it (R103). -/
def execJl (off : BitVec 24) (s : State) : Out := goTo s s (s.wordsOn off.toInt) true

/-- jl.l: both its words are one instruction, and s1 receives the pair's address plus 8 (R27). -/
def execJlL (off : BitVec 48) (s : State) : Out :=
  let target := s.wordsOn off.toInt
  if target.toNat % 4 ≠ 0 then .next (s.trap 0x03 target)
  else .next ((s.setThread (s.thread.setS 1 (s.pc + 8))).jump target)

/-- A jump through a register, read before s1 is written (R104). -/
def jumpTo (relative link : Bool) (a : Opd) (s : State) : Out :=
  withOperands [⟨.scalar, .src, a⟩] s fun s0 =>
    let (x, s) := s0.readS a
    goTo s0 s (if relative then s0.pc + x else x) link

/-- jr (R104). -/
def execJr (a : Opd) (s : State) : Out := jumpTo true false a s
/-- jr.a (R104). -/
def execJrA (a : Opd) (s : State) : Out := jumpTo false false a s
/-- jlr (R104). -/
def execJlr (a : Opd) (s : State) : Out := jumpTo true true a s
/-- jlr.a (R104). -/
def execJlrA (a : Opd) (s : State) : Out := jumpTo false true a s

end Sys2Proof.Machine
end

