-- ==== Sys2Proof/Machine/Futures.lean ====
section
/-! DEFINITION. The future instructions at issue (22 R302, R303, 23 R323, R324). -/

set_option Elab.async false

namespace Sys2Proof.Machine

open Sys2Proof

/-- A future's address: any check it fails is cause 0x51 (R303), but that no path to its home lives, which is no check of R106 (R297). -/
def State.futureAt (s : State) (ea : Word) (need : Need) : Except Nat Access × State :=
  match s.checkAddr ea 16 rawWindows true need true with
  | (.error e, s) => (.error (if e = 0x17 then 0x17 else 0x51), s)
  | r => r

/-- A continuation record's address: global and 64-byte aligned (R303, R304). -/
def State.recordAt (s : State) (ea : Word) : Except Nat Access × State := s.checkAddr ea 64 (fun _ => false) true { w := true } true

/-- A future operation: it parks until the home has performed or refused it (R303). -/
def futureOp (op : Nat) (us : List Use) (f : Opd) (need : Need) (arg : State → Word × State) (rec : Option Opd)
    (finish : Word → State → Out) (s : State) : Out :=
  withReply us s
    (fun s0 =>
      let (ea, s) := s0.readS f
      let (x, s) := arg s
      let (r, s) := match rec with | some c => let (r, s) := s.readS c; (some r, s) | none => (none, s)
      match s.futureAt ea need with
      | (.error c, _) => .next (s0.trap c ea)
      | (.ok a, s) =>
        let go (s : State) (b : Option Access) : Out :=
          let home := s.accessHome s.curCore a
          if op = 2 ∨ op = 3 then afterWork s0 s (max 2 (s.scope s.curCore a.key)) fun s =>
            .next (s.ask (fun s => s.sendRelease (max 2 (s.scope s.curCore a.key)) home false (.fut op a .none x b)))
          else afterAcquires s0 s fun s => .next (s.ask (fun s => s.send home [] false (.fut op a .none x b)))
        match r with
        | none => go s none
        | some ra =>
          match s.recordAt ra with
          | (.error c, _) => .next (s0.trap c ra)
          | (.ok b, s) => go s (some b))
    finish

/-- fut.init (R303, R323). -/
def execFutInit (a : Opd) (s : State) : Out :=
  futureOp 0 [⟨.scalar, .src, a⟩] a { r := true, w := true } (fun s => (0, s)) none (fun _ s => .next s.complete) s
/-- fut.reg (R303). -/
def execFutReg (a b c : Opd) (s : State) : Out :=
  futureOp 1 [⟨.scalar, .dst, a⟩, ⟨.scalar, .src, b⟩, ⟨.scalar, .src, c⟩] b { r := true, w := true } (fun s => (0, s)) (some c)
    (fun v s => .next (s.resultS a v true).complete) s
/-- fut.res: a release (R303). -/
def execFutRes (a b : Opd) (s : State) : Out :=
  futureOp 2 [⟨.scalar, .src, a⟩, ⟨.scalar, .src, b⟩] a { r := true, w := true } (fun s => s.readS b) none
    (fun _ s => .next s.complete) s
/-- fut.res.p: poisons (R323). -/
def execFutResP (a b : Opd) (s : State) : Out :=
  futureOp 3 [⟨.scalar, .src, a⟩, ⟨.scalar, .src, b⟩] a { r := true, w := true } (fun s => s.readS b) none
    (fun _ s => .next s.complete) s
/-- fut.rd (R303). -/
def execFutRd (a b : Opd) (s : State) : Out :=
  futureOp 4 [⟨.scalar, .dst, a⟩, ⟨.scalar, .src, b⟩] b { r := true } (fun s => (0, s)) none
    (fun v s => .next (s.resultS a v true).complete) s
/-- fut.rd.s: the state word (R323). -/
def execFutRdS (a b : Opd) (s : State) : Out :=
  futureOp 5 [⟨.scalar, .dst, a⟩, ⟨.scalar, .src, b⟩] b { r := true } (fun s => (0, s)) none
    (fun v s => .next (s.resultS a v true).complete) s

end Sys2Proof.Machine
end

