-- ==== Sys2Proof/Machine/Timeline.lean ====
section
/-! DEFINITION. Timelines and phrase leases (24 R325-R332). -/

set_option Elab.async false

namespace Sys2Proof.Machine

open Sys2Proof

/-! ## Timelines (R325-R327) -/

/-- A live graph of a die. -/
def State.graph (s : State) (die num : Nat) : Option Graph := (s.die die).graphs.find? (fun g => g.num == num)

/-- A phrase lease of a handle. -/
def State.phraseLease (s : State) (h : Nat) : Option PhraseLease := s.phraseLeases.find? (fun l => l.handle == h)

/-- The value of a timeline's counter, none for an identifier that names nothing: 0 copy context, 1 array, 2 region,
3 phrase lease, 4 graph (R325). -/
def State.timeline (s : State) (core kind id : Nat) : Option Nat :=
  match kind with
  | 0 =>
    if id < 2 ^ 13 ∧ s.present (id % 2048) then some (vget (s.core (s.coreAt (id % 2048))).copies (id / 2048) {}).done
    else none
  | 1 => if id < 128 ∧ s.clusterPresent id then some (s.cluster id).array.done else none
  | 2 => (s.regionFor core id).map (fun r => match r.shares with
    | [] => r.flushes
    | x :: l => (l.map (·.flushed)).foldl min x.flushed)
  | 3 => (s.phraseLease id).bind (fun l => if l.core = core then some l.done else none)
  | _ => if id < 256 then (s.graph (id / 128) (id % 128)).map (·.drains) else none

/-- Where a timeline's engine takes queries. -/
def State.timelineHome (s : State) (kind id : Nat) : Nat :=
  match kind with
  | 0 => 0x70000 + id
  | 1 => arrayHome id
  | 2 => 2 ^ 70 + id
  | 3 => match s.phraseLease id with | some l => channelHome l.chan | none => 0
  | 4 => engineHome (id / 128)
  | _ => 0

/-- tl.rd: an acquire, whose value is the counter's when the query arrives (R326). -/
def execTlRd (a b : Opd) (kind : BitVec 6) (s : State) : Out :=
  withOperands [⟨.scalar, .dst, a⟩, ⟨.scalar, .src, b⟩] s fun s0 =>
    let (id, s) := s0.readS b
    let k := kind.toNat
    match s.timeline s.curCore k id.toNat with
    | none => .next (s0.trap 0x6C id)
    | some _ =>
      let (d, s) := s.dstS a
      .next (s.send (s.timelineHome k id.toNat) [] true (.tlRd k id.toNat d)).complete

/-- A timeline query arrives at its engine; the reply acquires when it returns, and holds the thread's later accesses until then (R326,
R327). One that finds its engine gone returns a value that the manual does not state. -/
def performTlRd (s : State) (w : Work) (kind id : Nat) (dst : Dst) : State :=
  let (v, s) := match s.timeline w.core kind id with
    | some v => (v, s)
    | none => s.draw
  s.replaceWork { w with home := 0, deps := [], arrived := none, body := .ret dst (BitVec.ofNat 512 (v % 2 ^ 64)) none 0 [] }

/-- tl.wait: an acquire; it parks until the counter has reached its number (R326). Parked it has not issued and has popped nothing
(R132, R137). -/
def execTlWait (a b : Opd) (kind : BitVec 6) (s : State) : Out :=
  withOperands [⟨.scalar, .src, a⟩, ⟨.scalar, .src, b⟩] s fun s0 =>
    let (id, s) := s0.readS a
    let (n, s) := s.readS b
    if s0.thread.pend = .elapsed then .next s.acquireNow.complete
    else
      match s.timeline s.curCore kind.toNat id.toNat with
      | none => (match s0.thread.pend with
        | .wait 77 _ => .next s0.park
        | _ => .next (s0.trap 0x6C id))
      | some v =>
        if n.toNat ≤ v then .next s.acquireNow.complete
        else .next (s0.parkWith (.wait 77 [kind.toNat, id.toNat, n.toNat]))

/-! ## Phrase leases (R328-R332) -/

/-- The lease holds its channel's phrase unit (R332). -/
def PhraseLease.holdsUnit (l : PhraseLease) : Bool := decide (l.done < l.expiry) && !(l.ended && decide (l.accepted ≤ l.done))

/-- Changes the lease of a handle. -/
def State.onLease (s : State) (h : Nat) (f : PhraseLease → PhraseLease) : State :=
  { s with phraseLeases := s.phraseLeases.map (fun l => if l.handle = h then f l else l) }

/-- A channel is entering a lower state (R300). -/
def State.enteringPower (s : State) (chan : Nat) : Bool := s.entering.any (fun e => e.chan == chan)

/-- ph.lease: refused with 0, or granted when the unit holds no lease, in arrival order (R329). A request that finds its
channel entering a lower state is refused and cancels the entry (R300). -/
def execPhLease (a b c : Opd) (s : State) : Out :=
  withReply [⟨.scalar, .dst, a⟩, ⟨.scalar, .src, b⟩, ⟨.scalar, .src, c⟩] s
    (fun s0 =>
      let (ch, s) := s0.readS b
      let (n, s) := s.readS c
      let refuse (s : State) : Out := .next (s.resultS a 0 true).complete
      if 256 ≤ ch.toNat ∨ 2 ^ 16 ≤ n.toNat ∨ n = 0 ∨ s.deadChannels.contains ch.toNat then refuse s
      else if s.enteringPower ch.toNat then refuse (s.touchChannel ch.toNat)
      else
        let s : State := { s with phraseReqs := s.phraseReqs ++ [⟨ch.toNat, s.curCore, s.curSlot, n.toNat⟩] }
        .next (s.parkWith (.wait 78 [])))
    (fun v s => .next (s.resultS a v true).complete)

/-- A phrase unit that holds no lease grants the earliest request (R329), or refuses it where its channel is entering a lower
state (R300). -/
def execPhraseLeaseGrant (chan : Nat) (s : State) : Out :=
  match s.phraseReqs.find? (fun r => r.chan == chan) with
  | none => .fault .noSuchEvent
  | some r =>
    if s.phraseLeases.any (fun l => l.chan == chan && l.holdsUnit) || !s.channelAwake chan then .fault .noSuchEvent
    else
      let s : State := { s with phraseReqs := s.phraseReqs.erase r }
      let say (s : State) (h : Nat) : Out :=
        .next (s.setThreadAt r.core r.slot { s.threadAt r.core r.slot with pend := .answered (BitVec.ofNat 64 h) })
      if s.enteringPower chan then say s 0
      else
        let (h, s) := s.freshName (s.phraseLeases.map (·.handle)) (2 ^ 64)
        say { s with phraseLeases := s.phraseLeases ++ [⟨h, chan, r.core, r.count, 0, 0, false⟩] } h

/-- Formats a run may have (R330). -/
def runFormat (f : Nat) : Bool := [0x01, 0x02, 0x03, 0x05, 0x06, 0x0A, 0x0B, 0x0C].contains f

/-- Translates n bytes from each of several addresses, each whole with its own need, in order (R331). -/
def State.translateEach (s : State) (n : Nat) : List (Nat × Need) → Except (Nat × Word) (List (List Access)) × State
  | [] => (.ok [], s)
  | (v, need) :: r =>
    match s.translateAll v n need with
    | (.error e, s) => (.error e, s)
    | (.ok l, s) =>
      match s.translateEach n r with
      | (.error e, s) => (.error e, s)
      | (.ok ls, s) => (.ok (l :: ls), s)

/-- Some page of the n bytes from one of several addresses translates to a home that is not HBM (R330). -/
def State.leavesHbm (s : State) (n : Nat) (vas : List Nat) : Bool × State :=
  (vas.flatMap (fun v => (List.range ((v % 4096 + n - 1) / 4096 + 1)).map (fun i => v / 4096 * 4096 + 4096 * i))).foldl (fun acc va =>
    match acc.2.translate acc.2.curCore acc.2.src.asid.toNat acc.2.src.pgroot.toNat false false va {} with
    | (.ok t, s) => (acc.1 || !isHbm (t.keyOf va), s)
    | (.error _, s) => (acc.1, s)) (false, s)

/-- ph.run: the lease, then the descriptor's limits, the address and the handles of its phrase block among them, then the phrase,
then the ranges (R330, R331, R343). -/
def execPhRun (a b c : Opd) (s : State) : Out :=
  withOperands [⟨.scalar, .dst, a⟩, ⟨.scalar, .src, b⟩, ⟨.scalar, .src, c⟩] s fun s0 =>
    let (h, s) := s0.readS b
    let (ea, s) := s.readS c
    withBlock s0 s ea fun x s =>
      match s.phraseLease h.toNat with
      | none => .next (s.trapFrom s0 0x6B h)
      | some l =>
        if l.core ≠ s.curCore ∨ l.ended ∨ l.expiry ≤ l.accepted then .next (s.trapFrom s0 0x6B h)
        else
          let limit (s : State) : Out := .next (s.trapFrom s0 0x46 ea)
          let pa : Word := BitVec.ofNat 64 (byteField x 31 24)
          let n := byteField x 35 32
          let fmt := byteField x 36 36
          if byteField x 63 37 ≠ 0 ∨ n = 0 ∨ 2 ^ 24 < n ∨ !runFormat fmt then limit s
          else
            match s.blockAt pa 64 with
            | .error _ => limit s
            | .ok block =>
              match s.readNow block with
              | none => .next (s0.parkForRead block)
              | some (y, s) =>
                let w := widthOf fmt / 8
                let nh := byteField y 1 1
                let used := byteField x 7 0 :: ((if 2 ≤ nh then [byteField x 15 8] else []) ++ (if 3 ≤ nh then [byteField x 23 16] else []))
                if byteField y 63 48 ≠ 0 || used.any (fun v => decide (2 ^ 56 ≤ v) || v % w != 0) then limit s
                else
                  let (foreign, s) := s.leavesHbm (n * w) used
                  if foreign then limit s
                  else
                    match phraseOf y with
                    | none => .next (s.trapFrom s0 0x45 pa)
                    | some p =>
                      let needs := used.zipIdx.map (fun (v : Nat × Nat) => (v.1, if v.2 = 0 then ({ w := true } : Need) else { r := true }))
                      match s.translateEach (n * w) needs with
                      | (.error e, s) => .next (s.trapFrom s0 e.1 e.2)
                      | (.ok accs, s) =>
                        let num := l.accepted + 1
                        let run : PhraseRun := ⟨l.handle, num, accs.headD [], accs[1]?.getD [], accs[2]?.getD [], n, fmt, p⟩
                        let deps := s.earlier (accs.flatten.map (fun q => (q.key, q.n))) true
                        let s := s.send (channelHome l.chan) deps false (.phRun run)
                        let s := s.onLease l.handle (fun q => { q with accepted := num })
                        .next (s.resultS a (BitVec.ofNat 64 num) true).complete

/-- The access to n bytes from an offset of a translated range. -/
def pieceAt : List Access → Nat → Nat → Access
  | [], _, n => ⟨0, n, .home, 0, []⟩
  | a :: r, off, n => if off < a.n then { a with key := a.key + off, n := n } else pieceAt r (off - a.n) n

/-- One element of a run: every operand is read before its store (R331). -/
def State.runElement (s : State) (w : Work) (run : PhraseRun) (g : FFlags) (j : Nat) : FFlags × State :=
  let f := (fmtOf run.fmt).getD fp32
  let n := widthOf run.fmt / 8
  let read (s : State) (l : List Access) : Val × State :=
    if l.isEmpty then (.fin false 0 0 false, s)
    else
      let (x, _, s) := s.engineRead w.core w.stamp (pieceAt l (j * n) n)
      (decode f x, s)
  let (x0, s) := read s run.dst
  let (x1, s) := read s run.src1
  let (x2, s) := read s run.src2
  let (v, h) := run.phrase.eval f (fun i => if i = 0 then x0 else if i = 1 then x1 else x2)
  let (c, h') := round f .rne false 0 (f32 v)
  (g ||| h ||| h', s.writeBytes (pieceAt run.dst (j * n) n).key n c (bytesMask n))

/-- A phrase-lease run's writes are performed, in order, and its flags reach its thread (R331, R332). A channel that is entering a lower
state lets the runs of its lease go on, which cancel no entry of that channel (R300). -/
def execPhraseRunCompletion (k : Nat) (s : State) : Out :=
  match s.findWork k with
  | none => .fault .noSuchEvent
  | some w =>
    match w.body with
    | .phRun run =>
      match s.phraseLease run.lease with
      | none => .fault .noSuchEvent
      | some l =>
        if !s.clear w || run.num ≠ l.done + 1 then .fault .noSuchEvent
        else
          sourceSteps s w.core ((run.src1 ++ run.src2).map Access.piece) fun s =>
          clearSteps s w.core (run.dst.map (fun a => (a.key, a.n))) fun s => regionStep s w fun s =>
            let s := (run.dst ++ run.src1 ++ run.src2).foldl (fun s a => s.touchOthers l.chan a.key a.n) s
            let (g, s) := (List.range run.count).foldl (fun acc j => acc.2.runElement w run acc.1 j) (0, s)
            let s := s.onThread w (·.addFlags g)
            .next ((s.onLease run.lease (fun q => { q with done := run.num })).dropWork k)
    | _ => .fault .noSuchEvent

/-- ph.free: parks until every accepted run has completed, and acquires them (R332). -/
def execPhFree (a : Opd) (s : State) : Out :=
  withOperands [⟨.scalar, .src, a⟩] s fun s0 =>
    let (h, s) := s0.readS a
    match s.phraseLease h.toNat with
    | none => .next (s0.trap 0x6B h)
    | some l =>
      if l.core ≠ s.curCore then .next (s0.trap 0x6B h)
      else if l.done < l.accepted then .next s0.park
      else
        let s := s.wakeTimeline 3 l.handle l.done
        let s : State := { s with phraseLeases := s.phraseLeases.erase l }
        .next s.acquireNow.complete

end Sys2Proof.Machine
end

