-- ==== Sys2Proof/Machine/Copy.lean ====
section
/-! DEFINITION. Copies, their contexts and their tags (19 R269-R271, 20 R282-R287). -/

set_option Elab.async false

namespace Sys2Proof.Machine

open Sys2Proof

/-! ## Descriptors -/

/-- Bytes of a copy: a key, a length and where they are performed. -/
abbrev Piece := Nat × Nat × Via

/-- What a `cp` or `cp.2d` descriptor asks. -/
structure CopyPlan where
  src : Word
  dst : Word
  len : Nat
  rows : Nat
  sstride : Int
  dstride : Int
  act : Nat
  atgt : Word
  status : Nat
  reserved : Bool
deriving DecidableEq, Repr

/-- A `cp` descriptor (R269). -/
def planLinear (x : Nat) : CopyPlan :=
  ⟨BitVec.ofNat 64 (byteField x 7 0), BitVec.ofNat 64 (byteField x 15 8), byteField x 23 16, 1, 0, 0, byteField x 24 24,
    BitVec.ofNat 64 (byteField x 39 32), 40, byteField x 31 25 == 0 && byteField x 63 56 == 0 && decide (byteField x 23 16 ≤ 2 ^ 32)⟩

/-- A `cp.2d` descriptor (R283). -/
def planStrided (x : Nat) : CopyPlan :=
  ⟨BitVec.ofNat 64 (byteField x 7 0), BitVec.ofNat 64 (byteField x 15 8), byteField x 19 16, byteField x 23 20,
    sext (byteField x 27 24) 32, sext (byteField x 31 28) 32, byteField x 32 32, BitVec.ofNat 64 (byteField x 47 40), 48,
    byteField x 39 33 == 0 && decide (byteField x 23 20 ≤ 2 ^ 20)⟩

/-- The address of a row. -/
def rowAt (base : Word) (stride : Int) (r : Nat) : Word := base + BitVec.ofInt 64 (stride * r)

/-- A side of a copy passes what R269 checks at issue: global, or a window run within its cluster, every row. -/
def State.sideOk (s : State) (base : Word) (stride : Int) (len rows : Nat) : Bool :=
  let top := base.toNat / 2 ^ 56
  top == 0 || (top == 0xF0 && (List.range rows).all (fun r => match s.rawRun (rowAt base stride r) len 0x6A with | .ok _ => true | _ => false))

/-- The target of an action, when its fields, its address and its core pass (R285): none where it does not. -/
def State.actionTarget (s : State) (act : Nat) (atgt : Word) : Option (Option Access) :=
  match act with
  | 0 => if atgt = 0 then some none else none
  | 1 => match (s.checkAddr atgt 16 rawWindows true { r := true, w := true } true).1 with | .ok a => some (some a) | _ => none
  | 2 => match (s.checkAddr atgt 16 rawWindows false {} false).1 with | .ok a => some (some a) | _ => none
  | 3 => if atgt.toNat < 2 ^ 11 ∧ s.present atgt.toNat then some none else none
  | _ => none

/-! ## Translation at issue (R270) -/

/-- The lower of two faults by address. -/
def lowerFault (a b : Option (Nat × Word)) : Option (Nat × Word) :=
  match a, b with
  | some x, some y => if y.2.toNat < x.2.toNat then some y else some x
  | none, y => y
  | x, none => x

/-- The rows of a side from row r, as pieces, with the lowest fault of any page and the translations used. -/
def State.sideRows (s : State) (base : Word) (stride : Int) (len : Nat) (need : Need) (r : Nat) :
    Nat → List (List Piece) × Option (Nat × Word) × List Trans × State
  | 0 => ([], none, [], s)
  | k + 1 =>
    let ea := rowAt base stride r
    if base.toNat / 2 ^ 56 = 0xF0 then
      let ps : List Piece := match s.rawRun ea len 0x6A with | .ok l => l.map (fun p => (p.1, p.2, Via.scratch)) | .error _ => []
      let (rest, f, ts, s) := s.sideRows base stride len need (r + 1) k
      (ps :: rest, f, ts, s)
    else
      match s.translateAll ea.toNat len need with
      | (.error e, s) =>
        let (rest, f, ts, s) := s.sideRows base stride len need (r + 1) k
        ([] :: rest, lowerFault (some e) f, ts, s)
      | (.ok l, s) =>
        let (rest, f, ts, s) := s.sideRows base stride len need (r + 1) k
        (l.map (fun a => (a.key, a.n, a.via)) :: rest, f, l.flatMap (·.trans) ++ ts, s)

/-- The pieces of n bytes from an offset of a row. -/
def sliceOf : List Piece → Nat → Nat → List Piece
  | [], _, _ => []
  | (k, m, v) :: r, off, n =>
    if n = 0 then []
    else if m ≤ off then sliceOf r (off - m) n
    else
      let t := min n (m - off)
      (k + off, t, v) :: sliceOf r 0 (n - t)

/-- The 64-byte granules of a row, in ascending order (R282). -/
def granulesOf (src dst : List Piece) (sa da : Word) (len : Nat) : List Granule :=
  (List.range (ceilDiv len 64)).map (fun i =>
    let n := min 64 (len - 64 * i)
    ⟨sliceOf src (64 * i) n, sliceOf dst (64 * i) n, sa + BitVec.ofNat 64 (64 * i), da + BitVec.ofNat 64 (64 * i)⟩)

/-- A `cp.t` of the acting thread's core has parked with the tag, and has no position yet. -/
def State.tagClaimed (s : State) (tag : Nat) : Bool :=
  s.work.any (fun w => w.core == s.curCore && (match w.body with
    | .handle (.cpT _ _ job) _ => job.tag == tag && w.arrived.isNone
    | _ => false))

/-- The tag's bit is 1, and no `cp.t` is about to clear it. -/
def State.tagSet (s : State) (tag : Nat) : Bool := s.me.tags.getLsbD tag && !s.tagClaimed tag

/-- Clears a tag's bit of the acting thread's core. -/
def State.clearTag (s : State) (tag : Nat) : State := s.setMe { s.me with tags := s.me.tags &&& ~~~((1 : Word) <<< tag) }

/-- Sets a tag's bit of a core. -/
def State.setTag (s : State) (core tag : Nat) : State :=
  let c := s.core core
  s.setCore core { c with tags := c.tags ||| ((1 : Word) <<< tag) }

/-! ## The copy instructions -/

/-- Hands a copy to its context (R270). -/
def State.startCopy (s : State) (kind : CopyKind) (p : CopyPlan) (ea : Word) (status : Nat) (target : Option Access)
    (ctx tag : Nat) : State :=
  let (src, fs, ts, s) := s.sideRows p.src p.sstride p.len { r := true } 0 p.rows
  let (dst, fd, td, s) := s.sideRows p.dst p.dstride p.len { w := true } 0 p.rows
  let fault := fs.orElse fun _ => fd
  let gs := if fault.isSome then [] else
    ((src.zip dst).zipIdx.map (fun r => granulesOf r.1.1 r.1.2 (rowAt p.src p.sstride r.2) (rowAt p.dst p.dstride r.2) p.len)).flatten
  let c := s.me
  let x := vget c.copies ctx {}
  let t := s.src
  let job : CopyJob := ⟨kind, ctx, x.issued + 1, gs, if gs.isEmpty then 1 else 0, p.act, p.atgt, target, p.len * p.rows, ea, status,
    some (status + 8), tag, (fault.map (·.1)).getD 0, (fault.map (·.2)).getD 0, false, 0, t.asid.toNat, t.pgroot.toNat, ts ++ td⟩
  let deps := if gs.isEmpty then [] else
    s.earlier (src.flatten.map (fun q => (q.1, q.2.1))) false ++ s.earlier (dst.flatten.map (fun q => (q.1, q.2.1))) true
  let s := s.setMe { c with copies := vset c.copies ctx { x with issued := x.issued + 1 } }
  s.send (0x70000 + s.curCore + 2048 * ctx) deps false (.copy job)

/-- Continues with a copy's descriptor: read at its first try, or kept while the instruction parks on its tag (R270). A
descriptor whose address fails R106 traps with 0x6A. -/
def withCopyDesc (a : Opd) (s : State) (k : State → Word → Nat → State → Out) : Out :=
  withOperands [⟨.scalar, .src, a⟩] s fun s0 =>
    let (ea, s) := s0.readS a
    match s0.thread.pend with
    | .item v => k s0 (BitVec.ofNat 64 (v / 2 ^ 512)) (v % 2 ^ 512) s
    | _ =>
      match s.blockAt ea 64 with
      | .error _ => .next (s0.trap 0x6A ea)
      | .ok acc =>
        match s.readNow acc with
        | none => .next (s0.parkForRead acc)
        | some (x, s) => k s0 ea x s

/-- The key of a descriptor's first byte. -/
def State.blockKey (s : State) (ea : Word) : Nat := match s.blockAt ea 64 with | .ok a => a.key | .error _ => 0

/-- A linear or strided copy (R270, R282). -/
def copyBy (kind : CopyKind) (plan : Nat → CopyPlan) (a : Opd) (ctx tag : BitVec 6) (s : State) : Out :=
  withCopyDesc a s fun s0 ea x s =>
    let p := plan x
    if !p.reserved || p.len = 0 || p.rows = 0 || 3 < p.act then .next (s.trapFrom s0 0x6A ea)
    else if !s.sideOk p.src p.sstride p.len p.rows || !s.sideOk p.dst p.dstride p.len p.rows then .next (s.trapFrom s0 0x6A ea)
    else
      match s.actionTarget p.act p.atgt with
      | none => .next (s.trapFrom s0 0x6A ea)
      | some target =>
        if !s.tagSet tag.toNat then .next ((s.readFrom s0).parkWith (.item (x + 2 ^ 512 * ea.toNat)))
        else .next ((s.clearTag tag.toNat).startCopy kind p ea (s.blockKey ea + p.status) target ctx.toNat tag.toNat).complete

/-- cp (R270). -/
def execCp (a : Opd) (ctx tag : BitVec 6) (s : State) : Out := copyBy .linear planLinear a ctx tag s
/-- cp.2d (R283). -/
def execCp2d (a : Opd) (ctx tag : BitVec 6) (s : State) : Out := copyBy .strided planStrided a ctx tag s

/-- cp.t: it parks until both handles have positioned or refused it; its tag is cleared with its position, so that a refusal leaves it
as it was (R10, R284). DESIGN CHOICE (log 106): its views are read one after the other, so the source's 0x41 or 0x43 comes before the
destination's; R55, R78 and R284 give no order across them. -/
def execCpT (a : Opd) (ctx tag : BitVec 6) (s : State) : Out :=
  match s.thread.pend with
  | .answered _ => .next s.complete
  | .refused c ta ti => .next (s.trap c ta ti)
  | .wait .. => .next s.park
  | _ =>
    withCopyDesc a s fun s0 ea x s =>
      let sv : Word := BitVec.ofNat 64 (byteField x 7 0)
      let dv : Word := BitVec.ofNat 64 (byteField x 15 8)
      let act := byteField x 16 16
      let atgt : Word := BitVec.ofNat 64 (byteField x 31 24)
      if byteField x 23 17 ≠ 0 ∨ byteField x 63 40 ≠ 0 ∨ 3 < act then .next (s.trapFrom s0 0x6A ea)
      else
        match s.actionTarget act atgt with
        | none => .next (s.trapFrom s0 0x6A ea)
        | some target =>
          match s.rowThree sv rawWindows, s.rowThree dv rawWindows with
          | some e, _ => .next (s.trapFrom s0 e sv)
          | none, some e => .next (s.trapFrom s0 e dv)
          | none, none => withView s0 s sv fun v t s => withView s0 s dv fun u d s =>
            if v.positions ≠ u.positions then .next (s.trapFrom s0 0x6A ea)
            else if !s.tagSet tag.toNat then .next ((s.readFrom s0).parkWith (.item (x + 2 ^ 512 * ea.toNat)))
            else
              let n := ceilDiv (u.positions * widthOf d.desc.fmt) 8
              let job : CopyJob := ⟨.tensor, ctx.toNat, 0, [], 0, act, atgt, target, n, ea, s.blockKey ea + 32, none, tag.toNat, 0, 0,
                false, 0, s.src.asid.toNat, s.src.pgroot.toNat, []⟩
              .next (s.askHandle t.home (.cpT v u job) [])

/-! ## The contexts (R270, R285, R286) -/

/-- Reads pieces as an engine, in order. -/
def State.readPieces (s : State) (core stamp : Nat) : List Piece → Nat × Bool × State
  | [] => (0, false, s)
  | (k, n, v) :: r =>
    let (x, b, s) := s.engineRead core stamp ⟨k, n, v, 0, []⟩
    let (y, c, s) := s.readPieces core stamp r
    (x + 2 ^ (8 * n) * y, b || c, s)

/-- Writes pieces at their homes, in order; what cannot reach its home is dropped (R297). -/
def State.writePieces (s : State) (core data : Nat) : List Piece → State
  | [] => s
  | (k, n, _) :: r =>
    let s := if s.reachable core k then s.writeBytes k n (data % 2 ^ (8 * n)) (bytesMask n) else s.countDropM core
    s.writePieces core (data / 2 ^ (8 * n)) r

/-- The offset within pieces of their first part of a word that satisfies a test, where one does. -/
def firstPart (p : Nat → Nat → Via → Bool) : List Piece → Option Nat
  | [] => none
  | (k, n, v) :: r =>
    match (wordsOf k n).find? (fun w => p (max k (8 * w)) (min (k + n) (8 * w + 8) - max k (8 * w)) v) with
    | some w => some (max k (8 * w) - k)
    | none => (firstPart p r).map (n + ·)

/-- What a granule meets, an unreachable home (0x17) or uncorrectable data (0x73), and the lowest address of it (R122, R269, R297). -/
def State.granuleFault (s : State) (core stamp : Nat) (g : Granule) (bad : Bool) : Option (Nat × Word) :=
  let lost (l : List Piece) : Option Nat := firstPart (fun k _ _ => !s.reachable core k) l
  match lost g.src, lost g.dst with
  | some i, _ => some (0x17, g.srcAddr + BitVec.ofNat 64 i)
  | none, some i => some (0x17, g.dstAddr + BitVec.ofNat 64 i)
  | none, none =>
    if bad then
      some (0x73, g.srcAddr + BitVec.ofNat 64 ((firstPart (fun k n v => (s.engineLine core stamp v k n).2.1) g.src).getD 0))
    else none

/-- Moves a granule: it is read, then written (R282, R286); one that the links have spoilt on its way is zeros (R122, log 101). -/
def State.moveGranule (s : State) (w : Work) (job : CopyJob) (g : Granule) (rest : List Granule) : State :=
  let s := (g.src ++ g.dst).foldl (fun s p => s.touchRange p.1 p.2.1) s
  let spoilt := w.link == .corrupt
  let (x, bad, s') := s.readPieces w.core w.stamp g.src
  let fault := (s.granuleFault w.core w.stamp g bad).orElse fun _ => if spoilt then some (0x73, g.srcAddr) else none
  let s' := if spoilt then s'.countUnc w.core (ceilDiv ((g.src.map (·.2.1)).foldl (· + ·) 0) 8) else s'
  let x := if spoilt then 0 else x
  let s := s'.writePieces w.core x g.dst
  let job := match fault with
    | some f => if job.cause = 0 ∨ (job.cause = f.1 ∧ f.2.toNat < job.faultAddr.toNat) then { job with cause := f.1, faultAddr := f.2 } else job
    | none => job
  s.replaceWork { w with arrived := none, link := .clean, body := .copy { job with granules := rest, phase := if rest.isEmpty then 1 else 0 } }

/-- The number under which a copy context sends: it is a source of its own (R247). -/
def contextSlot (ctx : Nat) : Nat := 20 + ctx

/-- The scratchpad bytes that a copy's next part reads or writes. -/
def CopyJob.ranges (j : CopyJob) : List (Nat × Nat) :=
  match j.phase, j.granules with
  | 0, g :: _ => (g.src ++ g.dst).map (fun p => (p.1, p.2.1))
  | 1, _ => j.target.toList.map (fun a => (a.key, a.n))
  | 2, _ => (j.status, 8) :: j.faddr.toList.map (·, 8)
  | _, _ => []

/-- The next part of a copy, in the order of R285: its granules, its action, its STATUS and FADDR, and its tag. An action whose home has
no path left is not performed, and STATUS is 0x17 (R297). -/
def execCopyCompletion (k : Nat) (s : State) : Out :=
  match s.findWork k with
  | none => .fault .noSuchEvent
  | some w =>
    match w.body with
    | .copy job =>
      let blocked := (s.before w).any (fun y => y.core == w.core && (match y.body with | .copy i => i.ctx == job.ctx | _ => false))
      let put (s : State) (job : CopyJob) : Out := .next (s.replaceWork { w with arrived := none, body := .copy job })
      if s.halted w.core || blocked || !s.clear w || s.holdsRanges w job.ranges then .fault .noSuchEvent
      else if w.link = .corrected then .next ((s.replaceWork { w with link := .clean }).countCorr w.core 1)
      else
        match job.phase with
        | 0 =>
          if job.kind = .tensor then (if job.moved then put s { job with phase := 1 } else .fault .noSuchEvent)
          else
            match job.granules with
            | [] => put s { job with phase := 1 }
            | g :: rest =>
              sourceSteps s w.core g.src fun s =>
              clearSteps s w.core (g.dst.filterMap (fun p => if p.2.2 = .scratch then none else some (p.1, p.2.1))) fun s =>
                regionStep s w fun s => .next (s.moveGranule w job g rest)
        | 1 =>
          match job.act, job.target with
          | 1, some a =>
            if !s.reachable w.core a.key then put s { job with phase := 2, cause := 0x17 } else
            atHome s w a fun s => followStep s w.heldSince fun s =>
              let (x, _, s) := (s.touch a.key).readHome w.core a.key 16
              let (ok, s) := s.resolve w.core (contextSlot job.ctx) job.asid job.root a.key x 2 (BitVec.ofNat 64 job.cause) true
              put s { job with phase := 2, cause := if ok then job.cause else 0x50 }
          | 2, some a => put (s.barrierSub w.core a.key job.bytes) { job with phase := 2 }
          | 3, _ =>
            put (s.addWork (mailMessage s w.core (contextSlot job.ctx) job.atgt.toNat ⟨job.desc, BitVec.ofNat 64 job.cause⟩)) { job with phase := 2 }
          | _, _ => put s { job with phase := 2 }
        | 2 =>
          let s := s.writeHome job.status 8 job.cause (bytesMask 8)
          let s := match job.faddr with | some f => s.writeHome f 8 job.faultAddr.toNat (bytesMask 8) | none => s
          put s { job with phase := 3 }
        | _ =>
          let c := s.core w.core
          let x := vget c.copies job.ctx {}
          let s := s.setCore w.core { c with copies := vset c.copies job.ctx { x with done := x.done + 1 } }
          let s := s.onThread w (·.addOob job.drops)
          .next ((s.setTag w.core job.tag).dropWork k)
    | _ => .fault .noSuchEvent

/-! ## Tags (R271, R287) -/

/-- tag.wait.all: an acquire (R271). -/
def execTagWaitAll (a : Opd) (s : State) : Out :=
  withOperands [⟨.scalar, .src, a⟩] s fun s0 =>
    let (mask, s) := s0.readS a
    if s.me.tags &&& mask = mask then .next s.acquireNow.complete else .next s0.park

/-- The lowest tag set, 64 for none. -/
def lowestTag (x : Word) : Nat := ((List.range 64).find? (fun i => x.getLsbD i)).getD 64

/-- tag.wait.any: it acquires the tag that it returns (R287). -/
def execTagWaitAny (a b : Opd) (s : State) : Out :=
  withOperands [⟨.scalar, .dst, a⟩, ⟨.scalar, .src, b⟩] s fun s0 =>
    let (mask, s) := s0.readS b
    let hit := s.me.tags &&& mask
    if hit = 0 ∧ mask ≠ 0 then .next s0.park
    else
      let s := if hit = 0 then s else s.acquireNow
      .next (s.resultS a (BitVec.ofNat 64 (lowestTag hit)) true).complete

/-- tag.ffr: the tag it returns is acquired (R287). -/
def execTagFfr (a b : Opd) (s : State) : Out :=
  withOperands [⟨.scalar, .dst, a⟩, ⟨.scalar, .src, b⟩] s fun s0 =>
    let (mask, s) := s0.readS b
    let hit := s.me.tags &&& mask
    let s := if hit = 0 then s else s.acquireNow
    .next (s.resultS a (BitVec.ofNat 64 (lowestTag hit)) true).complete

end Sys2Proof.Machine
end

