-- ==== Sys2Proof/Machine/Maintenance.lean ====
section
/-! DEFINITION. Invalidation of translations and cache maintenance (19 R263-R268, 20 R288). -/

set_option Elab.async false

namespace Sys2Proof.Machine

open Sys2Proof

/-! ## Translations that are dropped (R264-R266) -/

/-- An invalidation of an address space and a range names the translation: G entries of any address space too
(R264, R278). -/
def Trans.named (t : Trans) (asid lo len : Nat) : Bool :=
  (t.global || t.asid == asid) && decide (lo < t.lo + t.size) && decide (t.lo < lo + len)

/-- The translations an item in flight uses. -/
def Work.translations (w : Work) : List Trans :=
  let array (cmd : MxCmd) : List Trans :=
    match cmd with
    | .mma _ a b _ _ =>
      let of (x : MxSrc) : List Trans := match x with | .memory l => l.flatMap (·.trans) | .view _ => []
      of a ++ of b
    | _ => []
  match w.body with
  | .load parts .. => parts.flatMap (·.trans)
  | .store a .. => a.trans
  | .amo _ a .. => a.trans
  | .fut _ a _ _ r => a.trans ++ (match r with | some b => b.trans | none => [])
  | .writeBack _ _ _ _ _ ts => ts
  | .ret _ _ _ _ ts => ts
  | .monArm _ _ ts => ts
  | .fetch _ ts => ts
  | .copy j => j.trans ++ (match j.target with | some a => a.trans | none => [])
  | .handle (.cpT _ _ j) _ => match j.target with | some a => a.trans | none => []
  | .handle (.operand _ _ cmd ..) _ => array cmd
  | .handle (.upOpen d) _ => d.trans
  | .mx _ _ cmd => array cmd
  | .phRun r => (r.dst ++ r.src1 ++ r.src2).flatMap (·.trans)
  | .preempt _ area .. => area.flatMap (·.trans)
  | .bar _ a _ | .resolve a .. => a.trans
  | _ => []

/-- The item writes back bytes that a holder wrote: a core, or a cluster. -/
def Work.flushes (w : Work) (kind holder : Nat) : Bool :=
  match w.body with
  | .writeBack c _ _ _ wr _ => if kind = 0 then c == clusterOf holder && wr.getLsbD (posOf holder) else kind == 2 && c == holder
  | _ => false

/-- The items of a core, its withdrawn accesses among them, or of a cluster's array, that an invalidation's holder must drain. -/
def State.usersOf (s : State) (kind holder asid lo len : Nat) : List Nat :=
  let named (w : Work) : Bool := w.translations.any (fun t => t.named asid lo len)
  let mine (w : Work) : Bool :=
    match kind with
    | 0 => w.core == holder
    | 1 => false
    | _ => (match w.body with | .mx c .. => c == holder | .handle (.operand ..) _ => clusterOf w.core == holder | _ => false)
  let kept := if kind = 0 then (s.core holder).threads.toList.flatMap (fun t => t.withdrawn.filter named) else []
  (s.work.filter (fun w => (mine w || w.flushes kind holder) && named w) ++ kept).map (·.id)

/-- Every holder of the acting thread's partition: cores with their copy contexts, dies, and clusters with their arrays (R265). -/
def State.holders (s : State) : List (Nat × Nat) :=
  ((List.range 2048).filter (s.inPartition s.curCore)).map (fun c => (0, c)) ++ [(1, 0), (1, 1)] ++
    ((List.range 128).filter (s.clusterInPartition s.curCore)).map (fun c => (2, c))

/-- tlb.inv: it parks as fence.sys does, sends an invalidation to every holder, and goes on issuing (R264). -/
def execTlbInv (a b c : Opd) (s : State) : Out :=
  needPrivilege s fun s => withOperands [⟨.scalar, .src, a⟩, ⟨.scalar, .src, b⟩, ⟨.scalar, .src, c⟩] s fun s0 =>
    let (base, s1) := s0.readS a
    let (len, _) := s1.readS b
    if base.toNat % 4096 ≠ 0 ∨ len.toNat % 4096 ≠ 0 ∨ len = 0 ∨ 2 ^ 56 < base.toNat + len.toNat then .next (s0.trap 0x14 base)
    else fenceThen 3 s0 fun s =>
      let (base, s) := s.readS a
      let (len, s) := s.readS b
      let (asid, s) := s.readS c
      let mine := s.holders.map (fun h => s.item 0 [] false (.inval h.1 h.2 (asid.toNat % 2 ^ 16) base.toNat len.toNat []))
      .next (mine.foldl (fun s w => s.addWork w) s).complete

/-- tlb.sync: it parks until every holder has acknowledged the thread's earlier invalidations, then as fence.sys does
(R268). -/
def execTlbSync (s : State) : Out :=
  needPrivilege s fun s =>
    if s.work.any (fun w => w.of s.curCore s.curSlot && (match w.body with | .inval .. => true | _ => false)) then .next s.park
    else fenceThen 3 s fun s => .next s.complete

/-- An invalidation reaches a holder, which drops the translations it names; what it has to drain is known from now on
(R265, R266). A core that goes on takes none of them from its die either (R267). -/
def execInvalidationArrival (k : Nat) (s : State) : Out :=
  match s.findWork k with
  | none => .fault .noSuchEvent
  | some w =>
    match w.body with
    | .inval kind holder asid lo len _ =>
      if w.arrived.isSome then .fault .noSuchEvent
      else
        let keep (l : List Trans) : List Trans := l.filter (fun t => !t.named asid lo len)
        let dropDie (s : State) (d : Nat) : State := s.setDie d { s.die d with tlb := keep (s.die d).tlb }
        let s := s.replaceWork { w with arrived := some s.tick, body := .inval kind holder asid lo len (s.usersOf kind holder asid lo len) }
        match kind with
        | 0 =>
          let c := s.core holder
          .next (dropDie (s.setCore holder { c with itlb := keep c.itlb, dtlb := keep c.dtlb }) (dieOf holder))
        | 1 => .next (dropDie s holder)
        | _ => .next s
    | _ => .fault .noSuchEvent

/-- A holder acknowledges once nothing that it made through a named translation is left to be performed (log 78), the dirty bytes written through a named translation
have been written back, and, for a cluster's data cache, the sectors have been emptied (R266). -/
def execInvalidationAcknowledgement (k : Nat) (s : State) : Out :=
  match s.findWork k with
  | none => .fault .noSuchEvent
  | some w =>
    match w.body with
    | .inval kind holder asid lo len drain =>
      if w.arrived.isNone || !s.gone drain || !(s.usersOf kind holder asid lo len).isEmpty then .fault .noSuchEvent
      else
        let cl := if kind = 0 then clusterOf holder else holder
        let mine (x : Sector) : Bool :=
          x.trans.any (fun t => t.named asid lo len) && (kind == 2 || x.writers.getLsbD (posOf holder))
        let sectors := if kind = 1 then [] else (s.cluster cl).sectors.filter mine
        if sectors.any (fun x => x.mask != 0) then
          let s' := s.writeBackAll cl mine
          let ids := (s'.work.filter (fun x => sectors.any (fun y => x.writesBack cl y.key))).map (·.id)
          .next (s'.replaceWork { w with body := .inval kind holder asid lo len ids })
        else
          let s := if kind = 2 then sectors.foldl (fun s x => s.emptySector cl x.key) s else s
          .next (s.dropWork k)
    | _ => .fault .noSuchEvent

/-! ## Cache maintenance (R288) -/

/-- The physical ranges of a maintained range: pages without a valid translation, and those that the thread may not use
under the U rule, are skipped; R, W and X are not consulted. -/
def State.maintained (s : State) (ea n : Nat) : Nat → List (Nat × Nat) × State
  | 0 => ([], s)
  | k + 1 =>
    if n = 0 then ([], s)
    else
      let m := min n (4096 - ea % 4096)
      match s.translateMe ea {} with
      | (.ok t, s) => let (l, s) := s.maintained (ea + m) (n - m) k; ((t.keyOf ea, m) :: l, s)
      | (.error _, s) => s.maintained (ea + m) (n - m) k

/-- A block of 64 bytes holds a byte of the ranges. -/
def coversBlock (ranges : List (Nat × Nat)) (key : Nat) : Bool :=
  ranges.any (fun r => decide (r.1 < key + 64) && decide (key < r.1 + r.2))

/-- A maintenance instruction: its range is checked, and translated at issue, and it parks until what it wrote back has
been performed. `act` acts on the caches at once. -/
def maintenance (a b : Opd) (act : State → (Nat → Bool) → State) (s : State) : Out :=
  match s.thread.pend with
  | .wait _ ids => if s.gone ids then .next s.complete else .next s.park
  | _ =>
    withOperands [⟨.scalar, .src, a⟩, ⟨.scalar, .src, b⟩] s fun s0 =>
      let (base, s) := s0.readS a
      let (len, s) := s.readS b
      if len = 0 then .next s.complete
      else if base.toNat / 2 ^ 56 = 0xF0 then .next (s0.trap 0x15 base)
      else if 2 ^ 56 < base.toNat + len.toNat then .next (s0.trap 0x14 base)
      else
        let (ranges, s) := s.maintained base.toNat len.toNat (len.toNat / 4096 + 2)
        let s := act s (coversBlock ranges)
        let ids := (s.work.filter (fun w => match w.body with | .writeBack _ k .. => coversBlock ranges k | _ => false)).map (·.id)
        if ids.isEmpty then .next s.complete else .next (s.parkWith (.wait 90 ids))

/-- The clusters of the acting thread's partition. -/
def State.ownClusters (s : State) : List (Nat × Cluster) := s.clusters.filter (fun c => s.clusterInPartition s.curCore c.1)

/-- Writes back every sector of the partition's clusters that a condition names. -/
def State.writeBackWhere (s : State) (hit : Nat → Bool) : State :=
  s.ownClusters.foldl (fun s c => s.writeBackAll c.1 (fun x => hit x.key)) s

/-- Empties every sector of the partition's clusters that a condition names. -/
def State.emptyWhere (s : State) (hit : Nat → Bool) : State :=
  s.ownClusters.foldl (fun s c => (c.2.sectors.filter (fun x => hit x.key)).foldl (fun s x => s.emptySector c.1 x.key) s) s

/-- dc.wb (R288). -/
def execDcWb (a b : Opd) (s : State) : Out := maintenance a b State.writeBackWhere s

/-- dc.inv: dirty bytes are discarded (R288). -/
def execDcInv (a b : Opd) (s : State) : Out := needPrivilege s fun s => maintenance a b (fun s hit => s.emptyWhere hit) s

/-- dc.wbinv (R288). -/
def execDcWbinv (a b : Opd) (s : State) : Out :=
  maintenance a b (fun s hit => (s.writeBackWhere hit).emptyWhere hit) s

/-- ic.inv: it reaches every instruction cache of both dies (R197, R288), and the block that a thread runs through (R198). -/
def execIcInv (a b : Opd) (s : State) : Out :=
  maintenance a b (fun s hit =>
    let keep (l : List (Nat × VWord)) : List (Nat × VWord) := l.filter (fun x => !hit x.1)
    let leave (t : Thread) : Thread := { t with line := t.line.filter (fun x => !hit x.1) }
    let core (c : Core) : Core := { c with icache := keep c.icache, threads := c.threads.map leave }
    { s with
      iparity := s.iparity.filter (fun p => !hit p.2),
      cores := s.cores.map (fun (c : Nat × Core) => (c.1, core c.2)),
      saves := s.saves.map (fun v => { v with core := core v.core }),
      clusters := s.clusters.map (fun (c : Nat × Cluster) => (c.1, { c.2 with icache := keep c.2.icache })),
      dies := s.dies.map (fun (c : Nat × Die) => (c.1, { c.2 with icache := keep c.2.icache })) }) s

end Sys2Proof.Machine
end

