-- ==== Sys2Proof/Machine/Graph.lean ====
section
/-! DEFINITION. The syntax engines: graph descriptors, launching, control nodes, waves and the end of a graph
(23 R308-R314). -/

set_option Elab.async false

namespace Sys2Proof.Machine

open Sys2Proof

/-! ## Tables read at launch (R308) -/

/-- n bytes from a global address in an address space, as a little-endian number; none where a page has no usable
translation, or no path to its home lives (R297). The engine reads with privilege, at the homes, the launching cluster's sectors written
back and emptied before (R196, log 81). -/
def State.readAs (s : State) (core asid root va n : Nat) : Nat → Option Nat × State
  | 0 => (some 0, s)
  | k + 1 =>
    if n = 0 then (some 0, s)
    else if 2 ^ 56 ≤ va then (none, s)
    else
      match s.translate core asid root false false va { r := true } with
      | (.error _, s) => (none, s)
      | (.ok t, s) =>
        let m := min n (4096 - va % 4096)
        if !s.reachable core (t.keyOf va) then (none, s) else
        let (x, s) := ((s.touchRange (t.keyOf va) m).applyNow [(t.keyOf va, m)]).followRead core (t.keyOf va) m
        match s.readAs core asid root (va + m) (n - m) k with
        | (some y, s) => (some (x + 2 ^ (8 * m) * y), s)
        | (none, s) => (none, s)

/-- Who launches: the partition, the core whose translations the engine uses, the address space, and the PRIV bit of the threads. -/
structure Launcher where
  part : Nat
  core : Nat
  asid : Nat
  root : Nat
  priv : Bool
deriving DecidableEq, Repr

/-- A table of n bytes. -/
def State.table (s : State) (l : Launcher) (va n : Nat) : Option Nat × State := s.readAs l.core l.asid l.root va n (n / 4096 + 2)

/-- An arm's code: a stage, a control node, or END. -/
inductive Target where
  | stage (n : Nat)
  | node (n : Nat)
  | finish
deriving DecidableEq, Repr

/-- The target an arm names among nst stages and ncn nodes (R312). -/
def targetOf (nst ncn x : Nat) : Option Target :=
  if x = 0xFFFF then some .finish
  else if x < nst then some (.stage x)
  else if 0x8000 ≤ x ∧ x < 0x8000 + ncn then some (.node (x - 0x8000))
  else none

/-- An arm is allowed: its TARGET names a stage or node of the graph or END, its AFTER a node or END. -/
def armOk (nst ncn x : Nat) : Bool :=
  (targetOf nst ncn (x % 2 ^ 16)).isSome && (match targetOf nst ncn (x / 2 ^ 16) with | some (.stage _) => false | none => false | _ => true)

/-- An arm's two halves. -/
def armOf (x : Nat) : Arm := ⟨x % 2 ^ 16, x / 2 ^ 16⟩

/-- A control-node record, when it is within its limits (R312). -/
def nodeOf (nst ncn x : Nat) : Option Node :=
  let kind := byteField x 0 0
  let narm := byteField x 3 3
  let arms := (List.range 8).map (fun i => byteField x (19 + 4 * i) (16 + 4 * i))
  if decide (1 ≤ kind ∧ kind ≤ 3 ∧ byteField x 1 1 ≤ 63) && (kind == 3 || decide (byteField x 2 2 ≤ 3)) &&
      (if kind = 3 then decide (1 ≤ narm ∧ narm ≤ 8) else narm == 2) && byteField x 7 4 == 0 && byteField x 63 48 == 0 &&
      (arms.take narm).all (armOk nst ncn) && (arms.drop narm).all (· == 0)
  then some ⟨kind, byteField x 1 1, byteField x 2 2, BitVec.ofNat 64 (byteField x 15 8), (arms.take narm).map armOf, 0⟩
  else none

/-- What a thread of a stage starts with besides its stage's own fields (R311). -/
structure StartBlock where
  regs : List Word
  own : Option (Nat × Nat)
  nopriv : Bool
deriving DecidableEq, Repr

/-- A start block, when it is within its limits (R311). -/
def startBlockOf (x : Nat) : Option StartBlock :=
  let flags := byteField x 50 50
  let own := flags.testBit 0
  let root := byteField x 63 56
  if flags ≤ 3 ∧ byteField x 55 51 = 0 ∧ (own ∨ (byteField x 49 48 = 0 ∧ root = 0)) ∧ bits root 55 48 = 0 ∧ bits root 11 0 = 0 then
    some ⟨(List.range 6).map (fun i => BitVec.ofNat 64 (byteField x (8 * i + 7) (8 * i))),
      if own then some (byteField x 49 48, root) else none, flags.testBit 1⟩
  else none

/-- A stage as its record and its tables give it, ready to start (R309-R311). -/
structure StagePlan where
  stage : Stage
  tvec : Word
  image : Nat
  dlen : Nat
  doff : Nat
  roles : Nat
  offs : List Int
  ctx : Nat
  starts : List (Option StartBlock)
deriving DecidableEq, Repr

/-- The fields of a stage record within their limits (R309). -/
def stageFieldsOk (x : Nat) : Bool :=
  let slot0 := byteField x 59 59
  let nthr := byteField x 60 60
  let ctx := byteField x 58 58
  let used := (List.range 16).all (fun i => decide (slot0 ≤ i ∧ i < slot0 + nthr) || bits (byteField x 35 32) (2 * i + 1) (2 * i) == 0)
  decide (byteField x 7 0 < 2 ^ 56) && byteField x 7 0 % 4 == 0 && decide (byteField x 27 24 ≤ 2 ^ 18) &&
  byteField x 31 28 % 64 == 0 && decide (byteField x 31 28 + byteField x 27 24 ≤ 2 ^ 18) &&
  decide (1 ≤ byteField x 57 56 ∧ byteField x 57 56 ≤ 2048) && decide (ctx ≤ 2) && decide (1 ≤ nthr) &&
  decide (slot0 + nthr ≤ contexts ctx) && decide (1 ≤ byteField x 61 61) && byteField x 63 62 == 0 && used

/-- A placement list as numbers, when each is a core identifier and none appears twice (R310). -/
def placesOf (x n : Nat) : Option (List Nat) :=
  let l := unpackCodes 16 x n
  if l.all (fun c => decide (c < 2048)) && l.eraseDups.length == l.length then some l else none

/-- The start blocks of a stage from its start-table entry (R311). -/
def State.startBlocks (s : State) (l : Launcher) (va n : Nat) : Option (List (Option StartBlock)) × State :=
  if va = 0 then (some (List.replicate n none), s)
  else if va % 64 ≠ 0 then (none, s)
  else
    match s.table l va (64 * n) with
    | (none, s) => (none, s)
    | (some x, s) =>
      let bs := (List.range n).map (fun i => startBlockOf (byteField x (64 * i + 63) (64 * i)))
      (if bs.all (·.isSome) then some bs else none, s)

/-- One stage of a descriptor. -/
def State.stagePlan (s : State) (l : Launcher) (x init : Nat) : Option StagePlan × State :=
  if !stageFieldsOk x then (none, s)
  else
    let n := byteField x 57 56
    match s.table l (byteField x 55 48) (2 * n) with
    | (none, s) => (none, s)
    | (some p, s) =>
      match placesOf p n, s.startBlocks l init n with
      | some places, (some starts, s) =>
        match s.table l (byteField x 23 16) (byteField x 27 24) with
        | (none, s) => (none, s)
        | (some image, s) =>
          let off (hi lo : Nat) : Int := sext (byteField x hi lo) 32
          (some ⟨⟨BitVec.ofNat 64 (byteField x 7 0), places, byteField x 61 61, byteField x 59 59, byteField x 60 60, 0⟩,
            BitVec.ofNat 64 (byteField x 15 8 / 4 * 4), image, byteField x 27 24, byteField x 31 28, byteField x 35 32,
            [0, off 39 36, off 43 40, off 47 44], byteField x 58 58, starts⟩, s)
      | _, (_, s) => (none, s)

/-- Every stage of a descriptor. -/
def State.stagePlans (s : State) (l : Launcher) : List (Nat × Nat) → Option (List StagePlan) × State
  | [] => (some [], s)
  | (x, init) :: r =>
    match s.stagePlan l x init with
    | (none, s) => (none, s)
    | (some p, s) =>
      match s.stagePlans l r with
      | (none, s) => (none, s)
      | (some ps, s) => (some (p :: ps), s)

/-- A graph as its descriptor gives it. -/
structure GraphPlan where
  stages : List StagePlan
  edges : List (Nat × Nat)
  nodes : List Node
  entry : Arm
  donef : Option Access
deriving DecidableEq, Repr

/-- The future that DONEF names, none where its address fails (R302, R308). -/
def State.donefAt (s : State) (l : Launcher) (va : Nat) : Option Access :=
  if va / 2 ^ 56 = 0xF0 then
    match s.place va 0 rawWindows with
    | .ok p => if va % 16 = 0 then some ⟨scratchKey p.core p.loc, 16, .scratch, BitVec.ofNat 64 va, []⟩ else none
    | .error _ => none
  else if 2 ^ 56 ≤ va ∨ va % 16 ≠ 0 then none
  else
    match (s.translate l.core l.asid l.root false false va { r := true, w := true }).1 with
    | .ok t => some ⟨t.keyOf va, 16, .home, BitVec.ofNat 64 va, [t]⟩
    | .error _ => none

/-- Step 1 of a launch: every record is checked (R308-R313). -/
def State.graphPlan (s : State) (l : Launcher) (desc : Nat) : Option GraphPlan × State :=
  if desc % 64 ≠ 0 then (none, s)
  else
    match s.table l desc 64 with
    | (none, s) => (none, s)
    | (some d, s) =>
      let nst := byteField d 1 0
      let ned := byteField d 2 2
      let ncn := byteField d 3 3
      let entry := byteField d 7 4
      let donef := byteField d 39 32
      let init := byteField d 47 40
      if !(decide (1 ≤ nst ∧ nst ≤ 256 ∧ ned ≤ 64 ∧ ncn ≤ 32) && byteField d 63 48 == 0 && byteField d 15 8 % 64 == 0 &&
          byteField d 23 16 % 8 == 0 && (ncn == 0 || byteField d 31 24 % 64 == 0) && init % 8 == 0 && armOk nst ncn entry &&
          (donef == 0 || (s.donefAt l donef).isSome)) then (none, s)
      else
        let (stages, s) := s.table l (byteField d 15 8) (64 * nst)
        let (edges, s) := s.table l (byteField d 23 16) (8 * ned)
        let (nodes, s) := s.table l (byteField d 31 24) (64 * ncn)
        let (starts, s) := s.table l init (if init = 0 then 0 else 8 * nst)
        match stages, edges, nodes, starts with
        | some xs, some es, some ns, some is =>
          let edgeWords := unpackCodes 64 es ned
          let plans := (List.range ncn).map (fun i => nodeOf nst ncn (byteField ns (64 * i + 63) (64 * i)))
          if edgeWords.any (fun e => decide (nst ≤ bits e 11 0) || decide (nst ≤ bits e 27 16) || bits e 15 12 != 0 || bits e 63 28 != 0) ||
              plans.any (·.isNone) then (none, s)
          else
            match s.stagePlans l ((List.range nst).map (fun i => (byteField xs (64 * i + 63) (64 * i), byteField is (8 * i + 7) (8 * i)))) with
            | (none, s) => (none, s)
            | (some ps, s) =>
              (some ⟨ps, edgeWords.map (fun e => (bits e 11 0, bits e 27 16)), plans.filterMap id, armOf entry,
                if donef = 0 then none else s.donefAt l donef⟩, s)
        | _, _, _, _ => (none, s)

/-! ## Live graphs -/

/-- The live graph of a graph identifier, die * 128 + number. -/
def State.graphOf (s : State) (g : Nat) : Option Graph := s.graph (g / 128) (g % 128)

/-- Changes a live graph. -/
def State.onGraph (s : State) (g : Nat) (f : Graph → Graph) : State :=
  let d := s.die (g / 128)
  s.setDie (g / 128) { d with graphs := d.graphs.map (fun x => if x.num = g % 128 then f x else x) }

/-- The thread is parked in `take`. -/
def Thread.inTake (t : Thread) : Bool := t.waiting && (match t.pend with | .wait 80 _ => true | _ => false)

/-- The thread belongs to a graph that has not ended. -/
def Thread.inGraph (t : Thread) (g : Nat) : Bool := t.member.any (fun m => m.graph == g && !m.ended)

/-- An item of the engine of a die, which acts as the die's supervisor core (R248). -/
def State.engineItem (s : State) (die home : Nat) (body : Body) : Work :=
  ⟨0, die * 1024, 17, home, [], s.tick, 0, false, none, none, .clean, [], body⟩

/-- The engine places an item on the core its stage's pointer names (R317). -/
def State.placeItem (s : State) (g stage : Nat) (it : Item) : State :=
  match s.graphOf g with
  | none => s
  | some x =>
    match x.stages[stage]? with
    | none => s
    | some st =>
      let dest := st.places[st.ptr]?.getD 0
      let s := s.onGraph g (fun x => { x with stages := x.stages.set stage { st with ptr := (st.ptr + 1) % st.places.length } })
      s.addWork (s.engineItem (g / 128) (mailHome dest) (.item dest it))

/-- A graph's items, its deques and what its cores, its engine and lexicon entries keep for it are discarded (R314, R348). A notify still on its
way returns a value that the manual does not state. -/
def State.discardGraph (s : State) (g : Nat) : State :=
  let gone (w : Work) : Bool :=
    match w.body with
    | .item _ it => it.graph == g
    | .seal it => it.graph == g
    | .done x => x == g
    | .steal _ x _ => x == g
    | .stolen x _ _ => x == g
    | .notice _ x => x == g
    | _ => false
  let entry (e : LexEntry) : LexEntry := if e.graph = g then { e with graph := 0 } else e
  let left (w : Work) : Work :=
    match w.body with
    | .lex n (.arm i e) => { w with body := .lex n (.arm i (entry e)) }
    | _ => w
  let s := { s with work := (s.work.filter (fun w => !gone w)).map left }
  let s := s.work.foldl (fun s w => match w.body with
    | .notify x _ _ dst => if x = g then let (v, s) := s.draw; s.toRet w dst (BitVec.ofNat 512 (v % 2 ^ 64)) none 0 else s
    | _ => s) s
  let free (t : Thread) : Thread :=
    if t.inGraph g then
      if t.inTake then {} else { t with member := t.member.map (fun m => { m with ended := true }), heldItem := none, stolen := none }
    else t
  let s := s.cores.foldl (fun s (c : Nat × Core) => (List.range 16).foldl (fun s i =>
    if (c.2.thread i).inGraph g && (c.2.thread i).inTake then (s.cancelResults c.1 i).detach c.1 i else s) s) s
  let core (c : Core) : Core :=
    { c with threads := c.threads.map free, deques := c.deques.filter (fun d => d.graph != g),
             input := c.input.filter (fun it => it.graph != g), emitPtr := c.emitPtr.filter (fun p => p.1 != g),
             emitParked := c.emitParked.filter (fun p => !(c.thread p.1).inGraph g), steals := c.steals.filter (fun r => r.graph != g) }
  let record (r : Record) : Record :=
    { r with reg := if r.reg = g then 256 else r.reg, sealed_ := r.sealed_.filter (fun it => it.graph != g),
             notices := r.notices.filter (· != g) }
  let die (d : Die) : Die :=
    { d with records := (d.records.map record).filter (fun r => r.reg != 0 || r.sealed_.isSome || !r.notices.isEmpty),
             lexicon := d.lexicon.map (fun (p : Nat × LexSlot) => (p.1, { p.2 with entries := p.2.entries.map (Option.map entry) })) }
  let s : State := { s with dies := s.dies.map (fun (d : Nat × Die) => (d.1, die d.2)) }
  { s with cores := s.cores.map (fun (c : Nat × Core) => (c.1, core c.2)),
           saves := s.saves.map (fun v => { v with core := core v.core }) }

/-- A graph ends with a status, or is aborted with 2 (R314). -/
def State.endGraph (s : State) (g status : Nat) : State :=
  match s.graphOf g with
  | none => s
  | some x =>
    let s := s.wakeTimeline 4 g x.drains
    let s := s.discardGraph g
    let d := s.die (g / 128)
    let s := s.setDie (g / 128) { d with graphs := d.graphs.filter (fun y => y.num != g % 128) }
    match x.donef with
    | some a => s.addWork (s.engineItem (g / 128) (s.homeOf (g / 128 * 1024) a.key) (.resolve a (BitVec.ofNat 64 status) x.asid x.root))
    | none => s

/-! ## Control nodes (R312, R314) -/

/-- TEST of a LOOP or COND (R312). -/
def testOf (test : Nat) (n k : Word) : Bool :=
  match test with
  | 0 => n == k
  | 1 => n != k
  | 2 => decide (n.toNat < k.toNat)
  | _ => decide (k.toNat ≤ n.toNat)

/-- The arm a node picks for N (R314). -/
def Node.pick (x : Node) (n : Word) : Nat :=
  if x.kind = 3 then min n.toNat (x.arms.length - 1) else if testOf x.test n x.k then 0 else 1

/-- Acts on an arm after `evals` evaluations in a row with no injection between (R314). -/
def State.actArm (s : State) (g : Nat) (arm : Arm) (lo hi : Word) (evals : Nat) : Nat → State
  | 0 => s
  | fuel + 1 =>
    match s.graphOf g with
    | none => s
    | some x =>
      match targetOf x.stages.length x.nodes.length arm.target with
      | some (.stage st) =>
        let s := s.onGraph g (fun x => { x with live := x.live + 1, after := some arm.after })
        s.placeItem g st ⟨g, st, lo, hi, none, none, g / 128 * 1024, 0, false, false, false⟩
      | some (.node i) =>
        if 32 ≤ evals then s.endGraph g 3
        else
          match x.nodes[i]? with
          | none => s
          | some nd =>
            let n := vget x.notify nd.reg 0
            let j := nd.pick n
            let loop := nd.kind = 1
            let s := if loop ∧ j = 0 then s.onGraph g (fun x => { x with nodes := x.nodes.set i { nd with iter := nd.iter + 1 } }) else s
            s.actArm g (nd.arms[j]?.getD ⟨0xFFFF, 0xFFFF⟩) n (if loop then BitVec.ofNat 64 nd.iter else 0) (evals + 1) fuel
      | _ => s.endGraph g 0

/-! ## Launching (R313) -/

/-- The slots a plan starts: core and slot. -/
def GraphPlan.slots (p : GraphPlan) : List (Nat × Nat) :=
  p.stages.flatMap (fun st => st.stage.places.flatMap (fun c => (List.range st.stage.nthr).map (fun i => (c, st.stage.slot0 + i))))

/-- Step 3 of a launch. -/
def State.canStart (s : State) (p : GraphPlan) : Bool :=
  p.stages.all (fun st => st.stage.places.all (fun c => s.present c && (s.core c).mode == st.ctx)) &&
  p.slots.all (fun q => (s.threadAt q.1 q.2).slot == .empty) && p.slots.eraseDups.length == p.slots.length

/-- The LFSR's seed at a launch (R157). -/
def launchSeed (core slot : Nat) : BitVec 32 :=
  0x9E3779B9 ^^^ BitVec.ofNat 32 (dieOf core * 2 ^ 24 + core % 1024 * 2 ^ 8 + slot)

/-- The thread a slot starts with (R313). -/
def launchThread (g n : Nat) (p : StagePlan) (l : Launcher) (core place slot : Nat) : Thread :=
  let role := bits p.roles (2 * slot + 1) (2 * slot)
  let b := (p.starts[place]?.getD none)
  let pc := p.stage.code + BitVec.ofInt 64 (4 * (p.offs[role]?.getD 0))
  let regs : List Word := 0 :: 0 :: 0 :: BitVec.ofNat 64 (scratchKey core p.doff) :: BitVec.ofNat 64 place ::
    (match b with | some x => x.regs | none => [])
  { pc := pc, s := Vector.ofFn (fun i => regs[i.val]?.getD 0), slot := .ready, tvec := p.tvec,
    asid := BitVec.ofNat 16 ((b.bind (·.own)).elim l.asid (·.1)), pgroot := BitVec.ofNat 64 ((b.bind (·.own)).elim l.root (·.2)),
    priv := l.priv && !(b.any (·.nopriv)), srs := launchSeed core slot, member := some ⟨g, n, place, pc, p.stage.code, false⟩ }

/-- Starts a stage on one placed core: its image, its roles, its deque and its threads (R313). -/
def State.startStage (s : State) (g n : Nat) (p : StagePlan) (l : Launcher) (core place : Nat) : State :=
  let s := s.writeBytes (scratchKey core p.doff) p.dlen p.image (bytesMask p.dlen)
  let slots := (List.range p.stage.nthr).map (p.stage.slot0 + ·)
  let c := s.core core
  let mask := (slots.map (fun i => 3 * 2 ^ (2 * i))).foldl (· + ·) 0
  let roles := (c.roles &&& ~~~(BitVec.ofNat 32 mask)) ||| BitVec.ofNat 32 p.roles
  let c := { c with roles := roles, deques := c.deques ++ [⟨g, n, p.stage.deqcap, []⟩] }
  s.setCore core (slots.foldl (fun c i => c.setThread i (launchThread g n p l core place i)) c)

/-- The whole of a launch on a die's engine: the result it gives, and the state (R313). -/
def State.launchGraph (s0 : State) (die : Nat) (l : Launcher) (desc : Nat) (lo hi : Word) : Nat × State :=
  match s0.graphPlan l desc with
  | (none, _) => (0x8000000000000001, s0)
  | (some p, s) =>
    let free := ((List.range 64).map (· + 1)).filter (fun n => (s.graph die n).isNone)
    if free.isEmpty then (0x8000000000000002, s0)
    else if !s.canStart p then (0x8000000000000003, s0)
    else
      let (i, s) := s.choose free.length
      let num := free[i]?.getD 0
      let g := die * 128 + num
      let x : Graph := ⟨num, l.part, p.stages.map (·.stage), p.edges, p.nodes, p.donef, Vector.replicate 64 0, 0, none, 0, l.asid, l.root⟩
      let s := s.setDie die { s.die die with graphs := (s.die die).graphs ++ [x] }
      let s := p.stages.zipIdx.foldl (fun s st =>
        st.1.stage.places.zipIdx.foldl (fun s c => s.startStage g st.2 st.1 l c.1 c.2) s) s
      (num, s.actArm g p.entry lo hi 0 34)

/-- g.launch: a release at scope .sys; with a descriptor of 0 it aborts a graph (R313). -/
def execGLaunch (a b c : Opd) (s : State) : Out :=
  needPrivilege s fun s => withOperands [⟨.scalar, .dst, a⟩, ⟨.scalar, .src, b⟩, ⟨.scalar, .src, c⟩] s fun s0 =>
    let (desc, s) := s0.readS b
    let (tup, s) := s.readS c
    let die := dieOf s.curCore
    let t := s.src
    let send (s : State) (lo hi : Word) : Out :=
      let (d, s) := s.dstS a
      .next (s.sendRelease 3 (engineHome die) false (.launch die desc lo hi t.asid.toNat t.pgroot.toNat t.priv d)).complete
    if desc = 0 then send s tup 0
    else
      match s.checkAddr tup 8 rawWindows true { r := true } false with
      | (.error e, _) => .next (s0.trap e tup)
      | (.ok x, s) =>
        match s.checkAddr (tup + 8) 8 rawWindows true { r := true } false with
        | (.error e, _) => .next (s0.trap e tup)
        | (.ok y, s) =>
          match s.readNow x with
          | none => .next (s0.parkForRead x)
          | some (lo, s) =>
            match s.readNow y with
            | none => .next (s0.parkForRead y)
            | some (hi, s) => send s (BitVec.ofNat 64 lo) (BitVec.ofNat 64 hi)

/-- The engine performs a launch, or an abort, and writes its result (R313). -/
def execLaunchCompletion (k : Nat) (s : State) : Out :=
  s.begin k fun w s =>
    match w.body with
    | .launch die desc lo hi asid root priv dst =>
      if s.halted w.core ∨ (desc ≠ 0 ∧ !s.sharesFree none) then .fault .noSuchEvent
      else
        let (v, s) : Nat × State :=
          if desc = 0 then
            (if (s.graph die (lo.toNat % 128)).any (fun x => x.owner == s.partOf w.core) then (0, s.endGraph (die * 128 + lo.toNat % 128) 2) else (0x8000000000000005, s))
          else s.launchGraph die ⟨s.partOf w.core, w.core, asid, root, priv⟩ desc.toNat lo hi
        .next (s.toRet w dst (BitVec.ofNat 512 v) none 0)
    | _ => .fault .noSuchEvent

/-- A wave has drained: the engine observes it and evaluates AFTER (R314, R325). -/
def execWaveDrain (die graph : Nat) (s : State) : Out :=
  match s.graph die graph with
  | none => .fault .noSuchEvent
  | some x =>
    match x.after with
    | none => .fault .noSuchEvent
    | some after =>
      if x.live ≠ 0 ∨ (s.partition x.owner).halted then .fault .noSuchEvent
      else
        let g := die * 128 + graph
        let s := s.onGraph g (fun x => { x with drains := x.drains + 1, after := none })
        .next (s.actArm g ⟨after, 0xFFFF⟩ 0 0 0 34)

end Sys2Proof.Machine
end

