-- ==== Sys2Proof/Machine/Task.lean ====
section
/-! DEFINITION. Work items: the task instructions, deques, steals and probes (22 R304-R306, 23 R315-R322, 24 R341). -/

set_option Elab.async false

namespace Sys2Proof.Machine

open Sys2Proof

/-- An item arrives at a core: it joins its deque's near end or waits at the input; one of an ended graph is discarded
(R314, R318). While a save has taken the deque away, the item waits on its way (R336). -/
def execItemArrival (k : Nat) (s : State) : Out :=
  s.begin k fun w s =>
    match w.body with
    | .item dest it =>
      let at_ := s.coreAt dest
      if s.halted at_ then .fault .noSuchEvent
      else
        let c := s.core at_
        match c.deque it.graph it.stage with
        | none => if (s.graphOf it.graph).isNone then .next (s.dropWork k) else .fault .noSuchEvent
        | some _ => .next ((s.dropWork k).setCore at_ (c.accept it))
    | _ => .fault .noSuchEvent

/-! ## Steals (R319) -/

/-- The home of steal requests and answers at a core. -/
def stealHome (core : Nat) : Nat := 0x73000 + core

/-- The thread is parked in `take` for a stage, and no stolen item has come for it. -/
def Thread.takes (t : Thread) (g n : Nat) : Bool :=
  t.inTake && t.stolen.isNone && t.member.any (fun m => m.graph == g && m.stage == n)

/-- A thread of a stage is parked in `take` on a core. -/
def Core.parkedTake (c : Core) (g n : Nat) : Bool :=
  c.threads.toList.any (fun t => t.takes g n)

/-- The placements of a stage that a core asks in a round, in order: those after its own, wrapping. -/
def State.victims (s : State) (core g n : Nat) : List Nat :=
  match (s.graphOf g).bind (fun x => x.stages[n]?) with
  | none => []
  | some st =>
    let i := st.places.findIdx (fun c => s.coreAt c == core)
    st.places.drop (i + 1) ++ st.places.take i

/-- Replaces a core's steal round for a stage, or ends it. -/
def Core.setRound (c : Core) (g n : Nat) (r : Option StealRound) : Core :=
  let rest := c.steals.filter (fun x => !(x.graph == g && x.stage == n))
  { c with steals := match r with | some x => rest ++ [x] | none => rest }

/-- Asks the victim whose turn it is in a round; a stage with one placement asks none. -/
def State.askVictim (s : State) (core slot g n asked : Nat) : State :=
  let c := s.core core
  match (s.victims core g n)[asked]? with
  | none => s.setCore core (c.setRound g n none)
  | some v =>
    let s := s.setCore core (c.setRound g n (some ⟨g, n, slot, asked, true, 0, c.clock⟩))
    s.addWork ⟨0, core, slot, stealHome v, [], s.tick, 0, false, none, none, .clean, [], .steal v g n⟩

/-- The lowest slot of a core parked in `take` for a stage. -/
def Core.taker (c : Core) (g n : Nat) : Option Nat := (List.range 16).find? (fun i => (c.thread i).takes g n)

/-- A round begins for a take that is parked with its stage's deque empty, or none does (R319). -/
def State.stealAgain (s : State) (core g n : Nat) : State :=
  let c := s.core core
  match c.taker g n with
  | some slot =>
    if (c.deque g n).any (fun d => d.items.isEmpty) then s.askVictim core slot g n 0 else s.setCore core (c.setRound g n none)
  | none => s.setCore core (c.setRound g n none)

/-- A take that parks with its own deque empty starts a round, unless one is under way (R319). -/
def State.startSteal (s : State) (g n : Nat) : State :=
  if s.me.steals.any (fun r => r.graph == g && r.stage == n) then s else s.askVictim s.curCore s.curSlot g n 0

/-- A steal request reaches a victim, which yields its far-end item or fails (R319). A halted partition moves no item (R339). -/
def execStealRequest (k : Nat) (s : State) : Out :=
  s.begin k fun w s =>
    match w.body with
    | .steal v g n =>
      let at_ := s.coreAt v
      if s.halted at_ then .fault .noSuchEvent else
      let c := s.core at_
      let reply (s : State) (it : Option Item) : Out :=
        .next (s.replaceWork { w with home := stealHome w.core, body := .stolen g n it })
      match c.deque g n with
      | none => reply s none
      | some d =>
        match d.items.getLast? with
        | none => reply s none
        | some it =>
          if 2 ≤ d.items.length ∨ !c.parkedTake g n then
            reply (s.setCore at_ (c.putDeque { d with items := d.items.dropLast }).settleDeques) (some { it with reserve := false })
          else reply s none
    | _ => .fault .noSuchEvent

/-- A victim's answer reaches the thief: the take that caused the steal dequeues the item, unless another item has served it, and then
the item joins the near end; or the thief asks the next placement while a take is parked there with its deque empty, and waits 256
cycles after the last (R319). -/
def execStealReply (k : Nat) (s : State) : Out :=
  match s.findWork k with
  | none => .fault .noSuchEvent
  | some w =>
    match w.body with
    | .stolen g n it =>
      let at_ := s.coreAt w.core
      if s.halted at_ then .fault .noSuchEvent else
      let c := s.core at_
      let round := c.steals.find? (fun r => r.graph == g && r.stage == n)
      let s := s.dropWork k
      match it with
      | some it =>
        let it := { it with age := min 0xFFFFFFFF (it.age + (c.clock - (round.map (·.sent)).getD c.clock)) }
        let slot := (round.map (·.slot)).getD w.slot
        let t := c.thread slot
        let c := if t.takes g n && (c.deque g n).any (fun d => d.items.isEmpty) then c.setThread slot { t with stolen := some it }
          else c.accept it
        .next (((s.setCore at_ c).stealAgain at_ g n).countEvent at_ 5 1)
      | none =>
        let c := { c with fsteal := c.fsteal + 1 }
        match round with
        | none => .next (s.setCore at_ c)
        | some r =>
          if (s.victims at_ g n).length ≤ r.asked + 1 then
            .next (s.setCore at_ (c.setRound g n (some { r with asked := 0, busy := false, until_ := c.clock + 256 })))
          else if c.parkedTake g n && (c.deque g n).any (fun d => d.items.isEmpty) then
            .next ((s.setCore at_ c).askVictim at_ r.slot g n (r.asked + 1))
          else .next (s.setCore at_ (c.setRound g n none))
    | _ => .fault .noSuchEvent

/-- The wait after a failed round ends: the next round begins if a take is still parked there (R319). -/
def execStealBackoffExpiry (core : Nat) (s : State) : Out :=
  let c := s.core core
  match c.steals.find? (fun r => !r.busy && decide (r.until_ ≤ c.clock)) with
  | none => .fault .noSuchEvent
  | some r =>
    .next (s.stealAgain core r.graph r.stage)

/-! ## Dispatch (R316, R341) -/

/-- A dispatch register's match of an item that a take on a core would receive (R341). -/
def dbmMatches (r : Word) (it : Item) (core : Nat) : Bool :=
  let x := r.toNat
  x.testBit 63 && !it.tested && (bits x 46 40 == 0 || bits x 46 40 == it.graph % 128) &&
  match bits x 57 56 with
  | 0 => it.stage == bits x 10 0
  | 1 => it.edge == some (bits x 10 0)
  | 2 => core == bits x 10 0
  | _ => false

/-- Writes a tuple to a take's destinations; where both name one register, hi remains. -/
def State.writeTuple (s : State) (a b : Opd) (lo hi : Word) (long : Bool) : State :=
  let s := if a = b ∧ !a.isQueue then s else s.resultS a lo long
  s.resultS b hi long

/-- The carried registers of a record, with their values (R304). -/
def carried (x : Nat) : List (Nat × Word) :=
  (List.range (min 4 (bits x 14 12))).map (fun j =>
    (bits x (20 + 5 * j) (16 + 5 * j), BitVec.ofNat 64 (byteField x (31 + 8 * j) (24 + 8 * j))))

/-- A take receives an item: it acquires what its emit released, its age is counted, and its tuple is written, or its
record is restored (R305, R306, R322). -/
def State.receive (s : State) (m : Member) (it : Item) (a b : Opd) : State :=
  let c := s.me
  let s := (s.setMe { c with qwait := c.qwait + BitVec.ofNat 64 it.age }).acquireNow
  let s := s.setThread { s.thread with item := some it, heldItem := none, stolen := none }
  match it.record with
  | none => (s.writeTuple a b it.lo it.hi true).complete
  | some key =>
    let (x, _, s) := ((s.touch key).applyNow [(key, 56)]).readHome s.curCore key 56
    let s := s.writeTuple a b (BitVec.ofNat 64 (byteField x 15 8)) (BitVec.ofNat 64 (byteField x 23 16)) false
    let s := s.setThread ((carried x).foldl (fun t p => t.setS p.1 p.2) s.thread)
    s.jump (m.code + BitVec.ofInt 64 (4 * sext (bits x 63 36) 28))

/-- The record of a resume item may be read at its home: the cluster's sector has been written back and emptied (R196), and nothing
is held there (R239) or on its way there from the core (R289). -/
def State.recordReady (s : State) (it : Item) : Bool × State :=
  match it.record with
  | none => (true, s)
  | some key => if s.readTurn [(key, 56)] && !s.readPasses ⟨key, 56, .home, 0, []⟩ then s.beforeRead ⟨key, 56, .home, 0, []⟩ else (false, s)

/-- Sends a halt of the partition (R339). -/
def State.sendHalt (s : State) (halt : Bool) : State := s.send 0 [] false (.debug halt)

/-- A take receives an item, unless a dispatch register matches it (R341). `back` gives the state in which the item is at the near end
of its deque again, and `taken` the one in which it has been dequeued. -/
def State.dispatch (s : State) (m : Member) (it : Item) (a b : Opd) (back : Item → State → State) (taken : State → State) : Out :=
  let die := m.graph / 128
  match s.recordReady it with
  | (false, s) => .next (s.parkWith (.wait 80 []))
  | (true, s) =>
    match ((s.die die).dbm.toList.zipIdx).find? (fun p => dbmMatches p.1 it s.curCore) with
    | none => .next ((taken s).receive m { it with reserve := false, tested := false } a b)
    | some (reg, i) =>
      let dd := s.die die
      let hit (s : State) : State := s.setDie die { dd with dbm := vset dd.dbm i (reg ||| (1 <<< 61)) }
      if reg.getLsbD 62 then .next ((hit (back { it with tested := true } s)).trap 0x71 it.lo (BitVec.ofNat 64 i))
      else
        let s := hit (taken s)
        let s := s.setThread { s.thread with heldItem := some { it with reserve := false }, stolen := none, pend := .none, stopping := some .byControl }
        let s := if (s.partAt s.curCore).bhalt then s.sendHalt true else s
        .next { s with last := .parked }

/-- take (R306, R316). -/
def execTake (a b : Opd) (s : State) : Out :=
  let us : List Use := [⟨.scalar, .dst, a⟩, ⟨.scalar, .dst, b⟩]
  withOperands us s fun s =>
    let t := s.thread
    match t.member with
    | none => .next (s.trap 0x53 0)
    | some m =>
      if t.item.isSome then .next (s.trap 0x53 0)
      else if m.ended then .next { ((s.cancelResults s.curCore s.curSlot).detach s.curCore s.curSlot).setThread {} with last := .completed }
      else
        match t.heldItem, t.stolen with
        | some it, _ =>
          (match s.recordReady it with
            | (false, s) => .next (s.parkWith (.wait 80 []))
            | (true, s) => .next (s.receive m it a b))
        | none, some it =>
          s.dispatch m it a b (fun it s => let s := s.setThread { s.thread with stolen := none }; s.setMe (s.me.accept it)) id
        | none, none =>
          match s.me.deque m.graph m.stage with
          | none => .next (s.parkWith (.wait 80 []))
          | some d =>
            match d.items with
            | [] => .next ((s.startSteal m.graph m.stage).parkWith (.wait 80 []))
            | it :: r =>
              s.dispatch m it a b (fun it s => s.setMe (s.me.putDeque { d with items := it :: r }))
                (fun s => s.setMe (s.me.putDeque { d with items := r }).settleDeques)

/-! ## done, emit, susp and g.notify -/

/-- The scope of a release to every core of a list, where they are now (R306, R337). -/
def State.coresScope (s : State) (core : Nat) (l : List Nat) : Nat := (l.map (s.coreScope core)).foldl max 0

/-- The scope of a `done`: .die when every placed core of the graph lies on the engine's die, else .sys (R316). -/
def State.doneScope (s : State) (g : Nat) : Nat :=
  let far := match s.graphOf g with
    | some x => x.stages.any (fun st => st.places.any (fun c => dieOf (s.coreAt c) != g / 128))
    | none => true
  if far then 3 else 2

/-- done: a release, at .die when every placed core of the graph lies on the engine's die (R316). -/
def execDone (s : State) : Out :=
  let t := s.thread
  match t.member, t.item with
  | some m, some _ =>
    let s' := s.setThread { t with item := none }
    if m.ended then .next s'.complete
    else
      .next (s'.sendRelease (s.doneScope m.graph) (engineHome (m.graph / 128)) false (.done m.graph)).complete
  | _, _ => .next (s.trap 0x53 0)

/-- The item waits at an input as a core's emit sent it: no engine has placed it, and no thief has put it back (R318, R320). -/
def Item.sentBy (it : Item) (core : Nat) : Bool := it.origin == core && it.edge.isSome && !it.joined

/-- Items of a core on their way to another, or held at its input (R260, R318). -/
def State.itemsToward (s : State) (core dest : Nat) : Nat :=
  s.buffered core dest + ((s.core (s.coreAt dest)).input.filter (fun it => it.sentBy core)).length

/-- A core's pointer for an edge among n placements (R317). -/
def State.emitAt (s : State) (core g e n : Nat) : Nat :=
  match (s.core core).emitPtr.find? (fun p => p.1 == g && p.2.1 == e) with | some p => p.2.2 | none => core % 2048 % n

/-- The core an emission goes to, and the pointer it leaves (R317). -/
def State.emitTarget (s : State) (g e : Nat) (places : List Nat) : Nat × State :=
  match places.find? (fun c => s.coreAt c == s.curCore) with
  | some c => (c, s)
  | none =>
    let n := places.length
    let c := s.me
    let i := s.emitAt s.curCore g e n
    let rest := c.emitPtr.filter (fun p => !(p.1 == g && p.2.1 == e))
    (places[i]?.getD 0, s.setMe { c with emitPtr := (g, e, (i + 1) % n) :: rest })

/-- The placements of the stage that an edge of a graph leads to. -/
def State.edgePlaces (s : State) (g e : Nat) : List Nat :=
  match s.graphOf g with
  | some x => ((x.edges[e]?.bind (fun p => x.stages[p.2]?)).map (·.places)).getD []
  | none => []

/-- The core that a core's parked emit would go to now (R317, R320). -/
def State.parkedGoal (s : State) (core : Nat) (p : Nat × Nat × Nat × Nat) : Nat :=
  let places := s.edgePlaces p.2.2.1 p.2.2.2
  match places.find? (fun c => s.coreAt c == core) with
  | some c => c
  | none => places[s.emitAt core p.2.2.1 p.2.2.2 places.length]?.getD 0

/-- The acting thread's emit is parked no more (R320). -/
def State.emitResumed (s : State) : State := s.setMe { s.me with emitParked := s.me.emitParked.filter (fun p => p.1 != s.curSlot) }

/-- emit: a release at the scope that contains every core of the target stage (R306, R317). -/
def execEmit (edge : BitVec 6) (b c : Opd) (s : State) : Out :=
  withOperands [⟨.scalar, .src, b⟩, ⟨.scalar, .src, c⟩] s fun s0 =>
    let (lo, s) := s0.readS b
    let (hi, s) := s.readS c
    let t := s0.thread
    match t.member, t.item with
    | some m, some _ =>
      if m.ended then .next s.emitResumed.complete
      else
        match s.graphOf m.graph with
        | none => .next s.emitResumed.complete
        | some g =>
          match g.edges[edge.toNat]? with
          | none => .next (s0.trap 0x52 0)
          | some (from_, dest) =>
            if from_ ≠ m.stage then .next (s0.trap 0x52 0)
            else
              let places := (g.stages[dest]?.map (·.places)).getD []
              let (core, s) := s.emitTarget m.graph edge.toNat places
              let parked := s0.me.emitParked
              if s.bufCap ≤ s.itemsToward s.curCore core then
                let parked := if parked.any (fun p => p.1 == s0.curSlot) then parked
                  else parked ++ [(s0.curSlot, s0.me.clock, m.graph, edge.toNat)]
                .next (s0.setMe { s0.me with emitParked := parked }).park
              else
                let s := s.emitResumed.onGraph m.graph (fun g => { g with live := g.live + 1 })
                let it : Item := ⟨m.graph, dest, lo, hi, some edge.toNat, none, s.curCore, 0, false, false, false⟩
                .next (s.sendRelease (s.coresScope s.curCore places) (mailHome core) false (.item core it)).complete
    | _, _ => .next (s0.trap 0x53 0)

/-- The registers a continuation mask names, ascending. -/
def maskRegs (mask : Word) : List Nat := (List.range 32).filter (fun i => mask.getLsbD i)

/-- Bytes [55:0] of a continuation record (R304). -/
def continuation (t : Thread) (it : Item) (stage : Nat) (regs : List Nat) (resume : Int) : Nat :=
  let header := stage % 2 ^ 12 + regs.length * 2 ^ 12 + (regs.zipIdx.map (fun p => p.1 * 2 ^ (16 + 5 * p.2))).foldl (· + ·) 0 +
    wrap resume 28 * 2 ^ 36
  header + it.lo.toNat * 2 ^ 64 + it.hi.toNat * 2 ^ 128 +
    (regs.zipIdx.map (fun p => (vget t.s p.1 0).toNat * 2 ^ (192 + 64 * p.2))).foldl (· + ·) 0

/-- susp: it behaves as marked, writes its record, seals it, and goes on at its own start (R304). -/
def execSusp (a b : Opd) (s : State) : Out :=
  withOperands [⟨.scalar, .src, a⟩, ⟨.scalar, .src, b⟩] s fun s0 =>
    let (ea, s) := s0.readS a
    let (mask, s) := s.readS b
    let t := s0.src
    if s.outstanding s.curCore s.curSlot then .next s0.park
    else
      match t.member, t.item with
      | some m, some it =>
        match s.recordAt ea with
        | (.error e, _) => .next (s0.trap e ea)
        | (.ok r, s) =>
          let regs := maskRegs mask
          let resume := (s0.nextPc - m.code).toInt / 4
          if mask.getLsbD 0 || decide (4 < regs.length) || decide (2 ^ 27 ≤ resume.natAbs) then .next (s0.trap 0x54 0)
          else
            let store := s.nextId
            let acc : Access := { r with n := 56 }
            let s := s.send (s.accessHome s.curCore acc) [] false (.store acc (continuation t it m.stage regs resume) (bytesMask 56))
            let s := if m.ended then s
              else s.send (engineHome (recordDie (s.fwd r.key))) [store] false (.seal { it with record := some (s.fwd r.key), edge := none })
            .next ((s.setThread { s.thread with item := none }).jump m.start)
      | _, _ => .next (s0.trap 0x53 0)

/-- g.notify (R315). -/
def execGNotify (a b : Opd) (n : BitVec 6) (s : State) : Out :=
  withOperands [⟨.scalar, .dst, a⟩, ⟨.scalar, .src, b⟩] s fun s0 =>
    let (x, s) := s0.readS b
    match s0.thread.member with
    | none => .next (s0.trap 0x53 0)
    | some m =>
      let (d, s) := s.dstS a
      if m.ended then
        let (v, s) := s.draw
        .next (s.returnLater d (BitVec.ofNat 512 (v % 2 ^ 64))).complete
      else .next (s.send (engineHome (m.graph / 128)) [] false (.notify m.graph n.toNat x d)).complete

/-- A `done` is performed at its engine (R314, R316). -/
def performDone (s : State) (w : Work) (g : Nat) : State :=
  (s.onGraph g (fun x => { x with live := x.live - 1 })).dropWork w.id

/-- A notify add is performed at its engine, indivisibly (R315). -/
def performNotify (s : State) (w : Work) (g n : Nat) (x : Word) (dst : Dst) : State :=
  match s.graphOf g with
  | none => let (v, s) := s.draw; s.toRet w dst (BitVec.ofNat 512 (v % 2 ^ 64)) none 0
  | some y =>
    let v := vget y.notify n 0 + x
    (s.onGraph g (fun y => { y with notify := vset y.notify n v })).toRet w dst (v.setWidth 512) none 0

/-! ## Seals and notices (R305) -/

/-- Queues the resume item of a record once its engine holds its seal and a notice, which leave it. -/
def State.resumeReady (s : State) (die key : Nat) : State :=
  let r := (s.die die).record key
  match r.sealed_, r.notices with
  | some it, _ :: l =>
    (s.setDie die ((s.die die).putRecord { r with sealed_ := none, notices := l })).placeItem it.graph it.stage it
  | _, _ => s

/-- A graph's partition is halted, so that its engine dispatches nothing for it (R339). -/
def State.graphHalted (s : State) (g : Nat) : Bool := (s.graphOf g).any (fun x => (s.partition x.owner).halted)

/-- The seal of a record reaches its engine (R305); one of an ended graph is discarded (R314). -/
def execSealArrival (k : Nat) (s : State) : Out :=
  s.begin k fun w s =>
    match w.body with
    | .seal it =>
      if s.graphHalted it.graph then .fault .noSuchEvent
      else
        let die := w.home - 0x60000
        let key := it.record.getD 0
        let d := s.die die
        if (s.graphOf it.graph).isNone ∨ it.graph / 128 ≠ die then .next (s.dropWork k)
        else .next (((s.dropWork k).setDie die (d.putRecord { d.record key with sealed_ := some it })).resumeReady die key)
    | _ => .fault .noSuchEvent

/-- A resume notice reaches the record's engine, before its seal or after it; one registered by a graph that has ended is discarded
(R305, R314). -/
def execResumeNotice (k : Nat) (s : State) : Out :=
  s.begin k fun w s =>
    match w.body with
    | .notice key graph =>
      if s.graphHalted graph then .fault .noSuchEvent
      else if graph = 256 then .next (s.dropWork k)
      else
        let die := w.home - 0x60000
        let d := s.die die
        let r := d.record key
        .next (((s.dropWork k).setDie die (d.putRecord { r with notices := r.notices ++ [graph] })).resumeReady die key)
    | _ => .fault .noSuchEvent

/-! ## Probes (R320) -/

/-- An item of a core in the translation message class (R279). -/
def State.classItem (s : State) (core home : Nat) (body : Body) : Work :=
  ⟨0, core, 18, home, [], s.tick, 0, false, none, none, .clean, [], body⟩

/-- The home of probe tokens and emergency requests at a core. -/
def probeHome (core : Nat) : Nat := 0x74000 + core

/-- An emit has been parked 4,096 cycles: a probe token goes toward its target core (R320). -/
def execProbeTimeout (core : Nat) (s : State) : Out :=
  let c := s.core core
  match c.emitParked.find? (fun p => decide (p.2.1 + 4096 ≤ c.clock)) with
  | none => .fault .noSuchEvent
  | some p =>
    let goal := s.parkedGoal core p
    let s := s.setCore core { c with emitParked := c.emitParked.map (fun q => if q = p then (q.1, c.clock, q.2.2) else q) }
    .next (s.addWork (s.classItem core (probeHome goal) (.probe core goal goal)))

/-- A probe token reaches a core: it has come back to its origin, which asks the target of the emit it was sent for, if that is still
parked, for an emergency entry; or it is forwarded to the target of the longest-parked emit, or dropped (R320). -/
def execProbeToken (k : Nat) (s : State) : Out :=
  s.begin k fun w s =>
    match w.body with
    | .probe origin dest first =>
      let parked := ((s.core (s.coreAt dest)).emitParked).map (s.parkedGoal (s.coreAt dest))
      let go (d : Nat) (body : Body) : Out := .next (s.replaceWork { w with home := probeHome d, body := body })
      if dest = origin then
        (if parked.contains first then go first (.emergency origin first) else .next (s.dropWork k))
      else
        match parked with
        | [] => .next (s.dropWork k)
        | p :: _ => go p (.probe origin p first)
    | _ => .fault .noSuchEvent

/-- Reserve entries of a core in use (R320). -/
def Core.reserved (c : Core) : Nat := (c.deques.map (fun d => (d.items.filter (·.reserve)).length)).foldl (· + ·) 0

/-- A target admits the oldest item that it holds at its input from the origin into a reserve entry, when one is free
(R320). -/
def execEmergencyEntryRequest (k : Nat) (s : State) : Out :=
  s.begin k fun w s =>
    match w.body with
    | .emergency origin dest =>
      let at_ := s.coreAt dest
      if s.halted at_ then .fault .noSuchEvent else
      let c := s.core at_
      let mine := c.input.filter (fun it => it.sentBy origin)
      let oldest := mine.foldl (fun (b : Option Item) it => match b with | some x => if x.age < it.age then some it else b | none => some it) none
      match oldest with
      | none => .next (s.dropWork k)
      | some it =>
        match c.deque it.graph it.stage with
        | none => .next (s.dropWork k)
        | some d =>
          if 4 ≤ c.reserved then .next (s.dropWork k)
          else
            let c := { c with input := c.input.erase it }
            .next ((s.dropWork k).setCore at_ (c.putDeque { d with items := { it.join with reserve := true } :: d.items }))
    | _ => .fault .noSuchEvent

end Sys2Proof.Machine
end

