-- ==== Sys2Proof/Machine/Lexicon.lean ====
section
/-! DEFINITION. The lexicon: its slots, its commands and what they do at each committed position (25 R344-R352,
26 R354-R365). -/

set_option Elab.async false

namespace Sys2Proof.Machine

open Sys2Proof

/-! ## Slots (R354-R356) -/

/-- The slot of a slot value: the number in bits [11:0] and the die in bit 12 (R344). -/
def State.lexSlot (s : State) (v : Nat) : LexSlot := sget (s.die (v / 4096)).lexicon (v % 4096) {}

/-- Replaces a slot. -/
def State.setLexSlot (s : State) (v : Nat) (x : LexSlot) : State :=
  let d := s.die (v / 4096)
  s.setDie (v / 4096) { d with lexicon := sset d.lexicon (v % 4096) x }

/-- The slot value names a slot assigned to the partition (R344, R355). -/
def Partition.slotAssigned (p : Partition) (v : Nat) : Bool :=
  let b := vget p.lexBase (v / 4096) 0
  decide (v < 8192) && decide (b ≤ v % 4096) && decide (v % 4096 < b + vget p.lexNum (v / 4096) 0)

/-! ## One position (R347, R358) -/

/-- A budget counts a token: whether it reaches zero, and what it becomes. -/
def Budget.count_ (b : Budget) (counts : Bool) : Bool × Budget :=
  if b.enabled && counts then
    if b.count = 1 then (true, { b with count := 0, enabled := false }) else (false, { b with count := b.count - 1 })
  else (false, b)

/-- An entry matches the tokens committed so far, latest first. -/
def LexEntry.matches_ (e : LexEntry) (recent : List Nat) : Bool :=
  decide (e.toks.length ≤ recent.length) &&
  (e.toks.reverse.zip recent).all (fun p => match p.1 with | none => true | some t => t == p.2)

/-- What fired at a position: SRC, ACT and FSLOT (R349). -/
structure Fired where
  src : Nat := 15
  act : Nat := 0
  fslot : Nat := 0
deriving DecidableEq, Repr

/-- Steps 1 to 4 of R347: the slot after the position, and what fires. -/
def LexSlot.evaluate (x : LexSlot) (tok : Nat) (forced : Bool) : LexSlot × Nat × Nat :=
  let (r0, b0) := x.b0.count_ true
  let (r1, b1) := x.b1.count_ (decide (x.b1.lo ≤ tok ∧ tok ≤ x.b1.hi))
  let recent := tok :: x.history
  let hit := (List.range 8).find? (fun e => (vget x.entries e none).any (fun en => en.matches_ recent))
  let y := { x with pos := (x.pos + 1) % 2 ^ 32, history := recent.take 3, b0 := b0, b1 := b1 }
  match hit with
  | some e =>
    let act := ((vget x.entries e none).map (·.act)).getD 0
    let y := { y with b0 := { b0 with pending := b0.pending || r0 }, b1 := { b1 with pending := b1.pending || r1 } }
    if forced ∧ act = 3 then (y, 15, 0) else (y, e, act)
  | none =>
    if b0.pending then ({ y with b0 := { b0 with pending := false }, b1 := { b1 with pending := b1.pending || r1 } }, 8, 1)
    else if b1.pending then ({ y with b0 := { b0 with pending := r0 }, b1 := { b1 with pending := false } }, 9, 1)
    else if r0 then ({ y with b1 := { b1 with pending := r1 } }, 8, 1)
    else if r1 then (y, 9, 1)
    else (y, 15, 0)

/-- The lowest-numbered FREE slot assigned to a partition on a die (R359). -/
def State.freeSlot (s : State) (p : Partition) (die : Nat) : Option Nat :=
  ((List.range (vget p.lexNum die 0)).map (fun i => die * 4096 + vget p.lexBase die 0 + i)).find? (fun v => (s.lexSlot v).state == .free)

/-- A message reaches a core's mailbox or its input at once. -/
def State.deliverMsg (s : State) (core : Nat) (m : Msg) : State :=
  let c := s.core (s.coreAt core)
  s.setCore (s.coreAt core) ({ c with inbox := c.inbox ++ [m] }).fillMailbox

/-- The message of a NOTIFY entry (R360). -/
def notifyMsg (e v pos tok : Nat) : Msg := ⟨BitVec.ofNat 64 (0x60 + e * 2 ^ 8 + v * 2 ^ 16 + pos * 2 ^ 32), BitVec.ofNat 64 tok⟩

/-- Commits a token at a slot's next position for a thread of a partition, and takes the action that fires there (R347, R348, R359, R360). -/
def State.commit (s : State) (p : Partition) (v tok : Nat) (forced : Bool) : Fired × State :=
  let x := s.lexSlot v
  let pos := x.pos
  let (y, src, act) := x.evaluate tok forced
  let y := if act = 0 then y else { y with fired := (y.fired + 1) % 2 ^ 32 }
  let en : LexEntry := (vget y.entries src none).getD ⟨[], 0, 0, 0, [], 0⟩
  let full (y : LexSlot) : LexSlot := { y with overflow := satAdd y.overflow 1 }
  match act with
  | 0 => ({}, s.setLexSlot v y)
  | 1 => (⟨src, 1, 0⟩, s.setLexSlot v { y with state := .stopped })
  | 2 =>
    match s.freeSlot p (v / 4096) with
    | some n => (⟨src, 2, n % 4096⟩, (s.setLexSlot v y).setLexSlot n { y with drafts := [], fired := 0, state := .run })
    | none => (⟨src, 2, v % 4096⟩, s.setLexSlot v (full y))
  | 3 =>
    if y.force.length + en.inj.length ≤ 16 then (⟨src, 3, 0⟩, s.setLexSlot v { y with force := y.force ++ en.inj })
    else (⟨src, 3, 0⟩, s.setLexSlot v (full y))
  | _ =>
    let s := s.setLexSlot v y
    if en.arg.testBit 7 then (⟨src, 4, 0⟩, s.deliverMsg en.tgt (notifyMsg src v pos tok))
    else (⟨src, 4, 0⟩, s.onGraph en.graph (fun g => { g with notify := vset g.notify (en.arg % 64) (vget g.notify (en.arg % 64) 0 + 1) }))

/-! ## Commands at the lexicon (R344-R349, R356) -/

/-- The result word (R349). -/
def resultWord (cnt tok : Nat) (forced : Bool) (f : Fired) : Nat :=
  cnt * 2 ^ 44 + f.fslot * 2 ^ 32 + f.src * 2 ^ 28 + f.act * 2 ^ 25 + (if forced then 2 ^ 24 else 0) + tok

/-- Accepts drafts from the oldest until an action fires (R349). -/
def State.confirm (s : State) (p : Partition) (v cnt last : Nat) : List Nat → (Nat × Nat × Fired) × State
  | [] => ((cnt, last, {}), s)
  | t :: r =>
    let (f, s) := s.commit p v t false
    if f.act ≠ 0 then ((cnt + 1, t, f), s) else s.confirm p v (cnt + 1) t r

/-- The state word of tk.next (R351, R356). -/
def LexSlot.stateWord (x : LexSlot) : Nat :=
  x.pos * 2 ^ 32 + x.drafts.length * 2 ^ 12 + x.force.length * 2 ^ 7 + (if x.trap then 2 else 0) + (if x.state = .run then 0 else 1)

/-- An item of a list of tokens with its valid bit. -/
def validToken (l : List Nat) (i : Nat) : Nat := match l[i]? with | some t => t + 2 ^ 63 | none => 0

/-- A budget as tk.st reports it. -/
def Budget.word (b : Budget) : Nat := b.count + (if b.enabled then 2 ^ 16 else 0) + (if b.pending then 2 ^ 17 else 0)

/-- An item of a slot (R363). -/
def LexSlot.status (x : LexSlot) (sel : Nat) : Nat :=
  if sel = 0 then (match x.state with | .free => 0 | .run => 1 | .stopped => 2)
  else if sel = 1 then x.b0.word
  else if sel = 2 then x.b1.word
  else if sel ≤ 5 then validToken x.history (sel - 3)
  else if sel = 6 then ((List.range 8).map (fun e => if (vget x.entries e none).isSome then 2 ^ e else 0)).foldl (· + ·) 0
  else if sel ≤ 14 then validToken x.drafts (sel - 7)
  else if sel ≤ 30 then validToken x.force (sel - 15)
  else x.overflow + x.fired * 2 ^ 32

/-- The value of a command that has no effect (R348). -/
def noEffect : Nat := 2 ^ 64 - 1

/-- What a performed command leaves to its thread: its value, and cr.taddr of the sequence stop it raises (R352), or a
draft window that is full (R349). -/
inductive LexAnswer where
  | value (v : Nat) (stop : Option Nat)
  | full
deriving DecidableEq, Repr

/-- A command that has committed: the answer, with the sequence stop of a slot whose TRAP is 1 (R352). -/
def State.committed (s : State) (v word : Nat) (f : Fired) : LexAnswer :=
  let x := s.lexSlot v
  .value word (if f.act = 1 ∧ x.trap then some ((x.pos + 2 ^ 32 - 1) % 2 ^ 32 * 2 ^ 32 + v) else none)

/-- Performs a command of a partition's thread on a slot whose storage is sound (R344-R349, R356, R357, R363). -/
def State.lexPerform (s : State) (p : Partition) (v : Nat) (cmd : LexCmd) : LexAnswer × State :=
  let x := s.lexSlot v
  let run := x.state = .run
  match cmd with
  | .reset trap => (.value 0 none, s.setLexSlot v { state := .run, trap := trap })
  | .release => (.value 0 none, s.setLexSlot v { x with state := .free })
  | .next => (.value x.stateWord none, s)
  | .st sel => (.value (x.status sel) none, s)
  | .arm e en => (.value 0 none, if run then s.setLexSlot v { x with entries := vset x.entries e (some en) } else s)
  | .bud k val =>
    let n := val.toNat
    let b : Budget := ⟨n % 2 ^ 16, n % 2 ^ 16 != 0, false, if k = 1 then bits n 39 16 else 0, if k = 1 then bits n 63 40 else 0⟩
    (.value 0 none, if run then s.setLexSlot v (if k = 0 then { x with b0 := b } else { x with b1 := b }) else s)
  | .draft tok =>
    if !run then (.value 0 none, s)
    else if 8 ≤ x.drafts.length then (.full, s)
    else (.value 0 none, s.setLexSlot v { x with drafts := x.drafts ++ [tok] })
  | .cmt tok =>
    if !run then (.value noEffect none, s)
    else
      let (t, forced, rest) := match x.force with | t :: r => (t, true, r) | [] => (tok, false, [])
      let (f, s) := (s.setLexSlot v { x with drafts := [], force := rest }).commit p v t forced
      (s.committed v (resultWord 0 t forced f) f, s)
  | .conf n =>
    if !run then (.value noEffect none, s)
    else
      let take := if x.force.isEmpty then x.drafts.take (min n 8) else []
      let ((cnt, last, f), s) := (s.setLexSlot v { x with drafts := [] }).confirm p v 0 0 take
      (s.committed v (resultWord cnt last false f) f, s)

/-- A command arrives at its lexicon and is performed: storage errors come first (R364). -/
def performLex (s : State) (w : Work) (v : Nat) (cmd : LexCmd) : State :=
  let x := s.lexSlot v
  let s := if x.soft then (s.countCorr w.core 1).setLexSlot v { x with soft := false } else s
  let x := s.lexSlot v
  let reset := match cmd with | .reset _ => true | _ => false
  let (a, s) := if x.bad && !reset then (LexAnswer.value noEffect none, (s.countUnc w.core 1).setLexSlot v { x with state := .stopped })
    else s.lexPerform (s.partAt w.core) v cmd
  match a with
  | .full => s.refuse w 0x63 v 0
  | .value r none => (s.dropWork w.id).answer w (.answered (BitVec.ofNat 64 r))
  | .value r (some stop) => (s.dropWork w.id).answer w (.performed (BitVec.ofNat 64 r) (BitVec.ofNat 64 stop))

/-! ## The instructions (R344) -/

/-- The place of a slot in its die's lexicon: commands to two slots keep no order (R361). -/
def lexHome (v : Nat) : Nat := 0x76000 + v

/-- Sends a command to the lexicon of a slot's die. -/
def State.askLex (s : State) (v : Nat) (cmd : LexCmd) : State := s.ask (fun s => s.send (lexHome v) [] false (.lex v cmd))

/-- A lexicon instruction: the slot value is checked, the command is built, and the thread parks until the lexicon has
performed it. A sequence stop is entered after the instruction, or its pair (R352). -/
def lexicon (us : List Use) (slot : State → Word × State) (build : State → Word → State → Out) (finish : Word → State → State)
    (s : State) : Out :=
  match s.thread.pend with
  | .performed v stop =>
    let t := (finish v s).complete
    .next (t.setThread { t.thread with pendTrap := some ⟨0x60, stop, v, s.nextPc, s.pc⟩ })
  | _ =>
    withReply us s
      (fun s0 =>
        let (v, s) := slot s0
        if !(s.partAt s.curCore).slotAssigned v.toNat then .next (s0.trap 0x61 v) else build s0 v s)
      (fun v s => .next (finish v s).complete)

/-- The entry of a pattern descriptor, when it is within its limits (R345, R360). -/
def State.lexEntry (s : State) (x : Nat) : Option LexEntry :=
  let w (i : Nat) : Nat := byteField x (4 * i + 3) (4 * i)
  let len := byteField x 16 16
  let act := byteField x 17 17
  let arg := byteField x 18 18
  let tgt := byteField x 21 20
  let msg := act = 4 ∧ arg.testBit 7
  let k := if act = 3 then arg else 0
  let argOk := if act = 3 then decide (1 ≤ arg ∧ arg ≤ 8)
    else if act = 4 then (if arg.testBit 7 then arg % 128 == 0 else !arg.testBit 6)
    else arg == 0
  let tgtOk := if msg then s.coreNamed (BitVec.ofNat 64 tgt) else tgt == 0
  let graph := s.src.member
  if decide (1 ≤ len ∧ len ≤ 4) && decide (1 ≤ act ∧ act ≤ 4) && argOk && tgtOk && byteField x 19 19 == 0 && byteField x 31 22 == 0 &&
      (List.range 4).all (fun i => if i < len then bits (w i) 30 24 == 0 else w i == 0) &&
      (List.range 8).all (fun i => if i < k then bits (w (8 + i)) 31 24 == 0 else w (8 + i) == 0) &&
      !(act == 4 && !arg.testBit 7 && graph.isNone)
  then
    some ⟨(List.range len).map (fun i => if (w i).testBit 31 then none else some (w i % 2 ^ 24)), act, arg, tgt,
      (List.range k).map (fun i => w (8 + i) % 2 ^ 24), match graph with | some m => if m.ended then 0 else m.graph | none => 0⟩
  else none

/-- tk.arm: a reset, or an entry armed from its descriptor (R345). -/
def execTkArm (a b : Opd) (e : BitVec 6) (s : State) : Out :=
  lexicon [⟨.scalar, .src, a⟩, ⟨.scalar, .src, b⟩] (fun s => s.readS a)
    (fun s0 v s =>
      let (x, s) := s.readS b
      if e = 8 then
        if 1 < x.toNat then .next (s0.trap 0x62 v) else .next (s.askLex v.toNat (.reset (x == 1)))
      else withBlock s0 s x fun d s =>
        match s.lexEntry d with
        | none => .next (s.trapFrom s0 0x62 x)
        | some en => .next (s.askLex v.toNat (.arm e.toNat en)))
    (fun _ s => s) s

/-- tk.bud (R346). -/
def execTkBud (a b : Opd) (k : BitVec 6) (s : State) : Out :=
  lexicon [⟨.scalar, .src, a⟩, ⟨.scalar, .src, b⟩] (fun s => s.readS a)
    (fun s0 v s =>
      let (x, s) := s.readS b
      if k = 0 ∧ 2 ^ 16 ≤ x.toNat then .next (s0.trap 0x62 v) else .next (s.askLex v.toNat (.bud k.toNat x)))
    (fun _ s => s) s

/-- tk.cmt (R349). -/
def execTkCmt (a b c : Opd) (s : State) : Out :=
  lexicon [⟨.scalar, .dst, a⟩, ⟨.scalar, .src, b⟩, ⟨.scalar, .src, c⟩] (fun s => s.readS b)
    (fun _ v s => let (x, s) := s.readS c; .next (s.askLex v.toNat (.cmt (x.toNat % 2 ^ 24))))
    (fun v s => s.resultS a v true) s

/-- tk.draft (R349). -/
def execTkDraft (a b : Opd) (s : State) : Out :=
  lexicon [⟨.scalar, .src, a⟩, ⟨.scalar, .src, b⟩] (fun s => s.readS a)
    (fun _ v s => let (x, s) := s.readS b; .next (s.askLex v.toNat (.draft (x.toNat % 2 ^ 24))))
    (fun _ s => s) s

/-- tk.conf (R349). -/
def execTkConf (a b c : Opd) (s : State) : Out :=
  lexicon [⟨.scalar, .dst, a⟩, ⟨.scalar, .src, b⟩, ⟨.scalar, .src, c⟩] (fun s => s.readS b)
    (fun _ v s => let (x, s) := s.readS c; .next (s.askLex v.toNat (.conf x.toNat)))
    (fun v s => s.resultS a v true) s

/-- tk.next (R351). -/
def execTkNext (a b : Opd) (s : State) : Out :=
  lexicon [⟨.scalar, .dst, a⟩, ⟨.scalar, .src, b⟩] (fun s => s.readS b)
    (fun _ v s => .next (s.askLex v.toNat .next)) (fun v s => s.resultS a v true) s

/-- tk.st (R363). -/
def execTkSt (a b : Opd) (which : BitVec 6) (s : State) : Out :=
  lexicon [⟨.scalar, .dst, a⟩, ⟨.scalar, .src, b⟩] (fun s => s.readS b)
    (fun _ v s => .next (s.askLex v.toNat (.st which.toNat))) (fun v s => s.resultS a v true) s

/-- A write of cr.lexrel: it parks until the slot has become FREE (R357). -/
def lexrel (a : Opd) (s : State) : Out :=
  lexicon [⟨.scalar, .src, a⟩] (fun s => s.readS a) (fun _ v s => .next (s.askLex v.toNat .release)) (fun _ s => s) s

/-- A write of cr.lexrel as a step of its own (R357). -/
def execLexrelWrite (a : Opd) (s : State) : Out := lexrel a s

end Sys2Proof.Machine
end

