-- ==== Sys2Proof/Machine/Stop.lean ====
section
/-! DEFINITION. Precise stops and resumes, quiescence, and the control of slots (10 R131-R137, 24 R333). -/

set_option Elab.async false

namespace Sys2Proof.Machine

open Sys2Proof

/-! ## Precise stops (R137) -/

/-- An ld.fe, ld.ff or st.ef of the thread that waits on a wait list. -/
def Work.waitsOf (w : Work) (core slot : Nat) : Bool :=
  w.of core slot && w.arrived.isSome && (match w.body with | .fe op .. => op != .stF | _ => false)

/-- The thread's waiting full/empty accesses leave their wait lists and are kept in its context. -/
def State.withdrawWaits (s : State) (core slot : Nat) : State :=
  (s.work.filter (fun w => w.waitsOf core slot)).foldl (fun s w => if (s.findWork w.id).isSome then s.keepWithdrawn w else s) s

/-- What a timed wait keeps of itself while its thread is stopped: the cycles that remain, at least one, since a stopped thread's timeouts
do not advance, or that its timeout has been reached (R339). -/
def Pend.kept (p : Pend) (clock : Nat) : Option Pend :=
  match p with
  | .deadline d => some (.deadline (if d = 0 then 0 else max 1 (d - clock)))
  | .elapsed => some .elapsed
  | _ => Option.none

/-- An instruction that waits for its thread to stop has not issued: what it asked for is called back. A timed wait keeps what remains
of it. -/
def State.callBack (s : State) (core slot : Nat) : State :=
  let t := s.threadAt core slot
  let s := s.withdrawIssue core slot
  match t.pend.kept (s.core core).clock with
  | some p => s.setThreadAt core slot { s.threadAt core slot with pend := p, latch := t.latch }
  | none => s

/-- The thread waits for items in flight. -/
def Pend.waits (p : Pend) : Bool := match p with | .wait .. => true | _ => false

/-- A stop that has been requested takes effect once the thread has no long-latency result outstanding, no trap of it waits, and an
instruction that has had its effect has completed, or was `tried` and cannot yet (R25, R137, R362). -/
def State.finishStop (s : State) (core slot : Nat) (tried : Bool) : State :=
  let t := s.threadAt core slot
  match t.stopping with
  | none => s
  | some mark =>
    if t.slot = .halted ∨ t.slot = .empty then s.setThreadAt core slot { t with stopping := none }
    else if t.pendTrap.isSome ∨ s.outstanding core slot then s
    else if s.midway core slot ∧ (!tried ∨ t.slot ≠ .parked ∨ t.pend.waits) then s
    else s.setThreadAt core slot { t with slot := .stopped, competes := false, mark := mark, stopping := none,
                                          latch := if t.pend = .none then [] else t.latch }

/-- A precise stop of a READY or PARKED slot is requested: the thread issues nothing from now on, and the stop behaves as marked
(R25, R137). -/
def State.stopSlot (s : State) (core slot : Nat) (mark : StopMark) : State :=
  let t := s.threadAt core slot
  if (t.slot ≠ .ready ∧ t.slot ≠ .parked) ∨ t.stopping.isSome then s
  else
    let s := if t.waiting ∧ t.pendTrap.isNone ∧ !s.midway core slot then s.callBack core slot else s
    let s := s.withdrawWaits core slot
    (s.setThreadAt core slot { s.threadAt core slot with stopping := some mark }).finishStop core slot false

/-- An item of a run of lanes has a new number. -/
def State.renameLane (s : State) (core old new : Nat) : State :=
  let c := s.core core
  if c.laneRuns.isEmpty then s
  else s.setCore core { c with laneRuns := c.laneRuns.map (fun l => l.map (fun i => if i = old then new else i)) }

/-- Withdrawn items are sent again under new numbers, in the order in which they issued: a full/empty access re-enters its wait list,
at the end (R137). -/
def State.sendAgain (s : State) (core slot : Nat) : List Work → List (Nat × Nat) → State
  | [], _ => s
  | w :: r, names =>
    let home := match w.body with
      | .fe _ a .. | .load (a :: _) .. | .store a .. | .amo _ a .. => s.accessHome core a
      | .bank _ d .. => s.homeOf core d
      | _ => w.home
    let x := { w with core := core, slot := slot, home := home, arrived := if w.isFe then some s.tick else none,
                      deps := w.deps.map (fun d => match names.find? (fun p => p.1 == d) with | some p => p.2 | none => d) }
    ((s.addWork x).renameLane core w.id s.nextId).sendAgain core slot r ((w.id, s.nextId) :: names)

/-- The banks of withdrawn accesses serve what can be performed (R142). -/
def State.serveBanks (s : State) (l : List Work) : State :=
  l.foldl (fun s w => match w.body with | .fe _ a .. => s.serveBank (s.bankAt a.key) s.work.length | _ => s) s

/-- A stopped slot becomes READY and competes from the next rotation boundary: its withdrawn accesses have re-entered their wait lists,
and its monitors are registered again and marked hit (R135, R137, R259). A stop that has not taken effect is forgotten. -/
def State.resumeSlot (s : State) (core slot : Nat) : State :=
  let t := s.threadAt core slot
  if t.slot ≠ .stopped ∧ t.stopping.isNone then s
  else
    let clock := (s.core core).clock
    let t := { t with stopping := none, withdrawn := [],
                      pend := match t.pend with | .deadline n => .deadline (if n = 0 then 0 else clock + n) | p => p }
    let u := if t.slot = .stopped then
        { t with slot := .ready, competes := false, monitors := t.monitors.map (fun m => { m with registered := true, hit := true }) }
      else t
    let l := (s.threadAt core slot).withdrawn
    ((s.setThreadAt core slot u).sendAgain core slot l []).serveBanks l

/-! ## Quiescence (R131) -/

/-- The item keeps a core from being quiescent: a full/empty access that it issued or that waits at its banks, a copy, a
bank command. -/
def State.occupies (s : State) (core : Nat) (w : Work) : Bool :=
  match w.body with
  | .fe _ a .. => w.arrived.isSome && (w.core == core || (isScratch (s.fwd a.key) && coreOfKey (s.fwd a.key) == core))
  | .copy _ => w.core == core
  | .handle (.cpT ..) _ => w.core == core
  | .bank _ d .. => w.core == core || coreOfKey d == core
  | _ => false

/-- The slot is EMPTY or HALTED, keeps no withdrawn access and has no monitor armed. -/
def Thread.restful (t : Thread) : Bool := (t.slot == .empty || t.slot == .halted) && t.withdrawn.isEmpty && t.monitors.isEmpty

/-- A core is quiescent (R131). -/
def State.quiescent (s : State) (core : Nat) : Bool :=
  let c := s.core core
  c.threads.toList.all Thread.restful && c.queues.toList.all List.isEmpty &&
  c.deques.all (fun d => d.items.isEmpty) && !s.work.any (s.occupies core) &&
  (match (s.array core).holder with | some h => h.1 != core | none => true) &&
  !s.phraseLeases.any (fun l => l.core == core && l.holdsUnit)

/-- The LIVE field: the slots that are not EMPTY (R130). -/
def Core.live (c : Core) : Nat :=
  ((List.range 16).map (fun i => if (c.thread i).slot = .empty then 0 else 2 ^ i)).foldl (· + ·) 0

/-! ## Slot control (R333) -/

/-- The operation of a slot-control instruction: privilege, then the core and the mask, then what the core does. -/
def slotControl (a b : Opd) (maskless : Bool) (act : State → Nat → Nat → Option (Nat × State)) (s : State) : Out :=
  needPrivilege s fun s => withOperands [⟨.scalar, .dst, a⟩, ⟨.scalar, .src, b⟩] s fun s0 =>
    let (x, s) := s0.readS b
    let core := bits x.toNat 10 0
    let mask := bits x.toNat 31 16
    if bits x.toNat 15 11 ≠ 0 ∨ bits x.toNat 63 32 ≠ 0 ∨ !s.inPartition s.curCore core ∨ (maskless ∧ mask ≠ 0) then .next (s0.trap 0x57 x)
    else
      match act s core mask with
      | none => .next (s0.trap 0x72 0)
      | some (v, s) => .next (s.resultS a (BitVec.ofNat 64 v) true).complete

/-- The registers of every context of a core become values that the manual leaves undefined (R131, R333). -/
def State.scramble (s : State) (core : Nat) : State :=
  let base := s.freeCtr
  let c := s.core core
  let free (i : Nat) (t : Thread) : Thread :=
    let at_ := base + 128 * i
    { t with s := Vector.ofFn (fun j => if j.val = 0 then 0 else BitVec.ofNat 64 (Config.freeNat (at_ + j.val))),
             v := Vector.ofFn (fun j => BitVec.ofNat 512 (Config.freeNat (at_ + 32 + j.val))),
             m := Vector.ofFn (fun j => if j.val = 0 then 0 else BitVec.ofNat 16 (Config.freeNat (at_ + 64 + j.val))) }
  { s.setCore core { c with threads := Vector.ofFn (fun i => free i.val c.threads[i]) } with freeCtr := base + 2048 }

/-- repart: a quiescent core other than the issuer's takes its next mode (R333). -/
def execRepart (a b : Opd) (s : State) : Out :=
  slotControl a b true (fun s core _ =>
    if core = s.curCore ∨ !s.quiescent core then none
    else
      let c := s.core core
      let mode := (c.mode + 1) % 3
      some (mode, (s.setCore core { c with mode := mode, roles := 0, ptr := c.ptr % contexts mode, rot := c.rot % contexts mode }).scramble core)) s

/-- Acts on the masked slots of a core that a condition names, but for the issuer's own, and gives their mask. -/
def State.overSlots (s : State) (core mask : Nat) (which : Thread → Bool) (act : State → Nat → State) : Nat × State :=
  (List.range (contexts (s.core core).mode)).foldl (fun acc i =>
    if mask.testBit i && !(core == acc.2.curCore && i == acc.2.curSlot) && which (acc.2.threadAt core i)
    then (acc.1 + 2 ^ i, act acc.2 i) else acc) (0, s)

/-- A HALTED slot is reclaimed: it becomes EMPTY, and its current item ends as by `done` (R333). -/
def State.reclaim (s : State) (core slot : Nat) : State :=
  let t := s.threadAt core slot
  let s := match t.member, t.item with
    | some m, some _ =>
      if m.ended ∨ (s.graphOf m.graph).isNone then s
      else s.actAs core slot (fun s => s.sendRelease (s.doneScope m.graph) (engineHome (m.graph / 128)) false (.done m.graph))
    | _, _ => s
  ((s.returnStolen core slot).detach core slot).setThreadAt core slot {}

/-- repart.rcl (R333). -/
def execRepartRcl (a b : Opd) (s : State) : Out :=
  slotControl a b false (fun s core mask => some (s.overSlots core mask (fun t => t.slot == .halted) (fun s i => s.reclaim core i))) s

/-- repart.stop (R333). -/
def execRepartStop (a b : Opd) (s : State) : Out :=
  slotControl a b false (fun s core mask =>
    some (s.overSlots core mask (fun t => t.slot == .ready || t.slot == .parked) (fun s i => s.stopSlot core i .byControl))) s

/-- The thread has been stopped by control, or is about to be. -/
def Thread.byControl (t : Thread) : Bool := (t.slot == .stopped && t.mark == .byControl) || t.stopping == some .byControl

/-- repart.run (R333). -/
def execRepartRun (a b : Opd) (s : State) : Out :=
  slotControl a b false (fun s core mask =>
    some (s.overSlots core mask Thread.byControl (fun s i => s.resumeSlot core i))) s

end Sys2Proof.Machine
end

