-- ==== Sys2Proof/Machine/Migrate.lean ====
section
/-! DEFINITION. Page migration: the descriptor, the copy of a frame, its forwarding entry, and their end (20 R280, R281). -/

set_option Elab.async false

namespace Sys2Proof.Machine

open Sys2Proof

/-! ## Issue (R280) -/

/-- A frame in the form of PTE bits [63:12], in HBM and aligned to its size, as a key. -/
def migrateKey (x size : Nat) : Option Nat :=
  let key := pteKey x
  if bits x 63 56 ≤ 1 ∧ bits x 55 48 = 0 ∧ bits x 11 0 = 0 ∧ key % size = 0 then some key else none

/-- A migration descriptor within its limits: whether it is a RELEASE, the frames' keys, their size and the tag. -/
def migrationOf (x : Nat) : Option (Bool × Nat × Nat × Nat × Nat) :=
  let release := byteField x 17 17 = 1
  if 2 < byteField x 16 16 ∨ 1 < byteField x 17 17 ∨ 63 < byteField x 18 18 ∨ byteField x 31 19 ≠ 0 ∨ byteField x 63 40 ≠ 0 then none
  else
    let size := pageSize (byteField x 16 16)
    match migrateKey (byteField x 7 0) size, (if release then some 0 else migrateKey (byteField x 15 8) size) with
    | some old, some new => some (release, old, new, size, byteField x 18 18)
    | _, _ => none

/-- A write of cr.migd (R280). -/
def writeMigd (a : Opd) (s : State) : Out :=
  withCopyDesc a s fun s0 ea x s =>
    match migrationOf x with
    | none => .next (s.trapFrom s0 0x6A ea)
    | some (release, old, new, size, tag) =>
      if !s.tagSet tag then .next ((s.readFrom s0).parkWith (.item (x + 2 ^ 512 * ea.toNat)))
      else .next ((s.clearTag tag).send 0 [] false (.migrate release old new size (s.blockKey ea + 32) tag none)).complete

/-! ## The controllers' steps (R281) -/

/-- A home of the frame is absent (R301). -/
def State.frameAbsent (s : State) (key size : Nat) : Bool :=
  decide (2 ^ 38 ≤ key % 2 ^ 56) || s.deadChannels.any (frameOn key size)

/-- What arrives for every channel of a frame wakes it (R300). -/
def State.touchFrame (s : State) (key size : Nat) : State :=
  ((s.power.map (·.1) ++ s.entering.map (·.chan)).filter (frameOn key size)).foldl State.touchChannel s

/-- A key of one range as the same place of another. -/
def shiftKey (old new key : Nat) : Nat := key - old + new

/-- The words of a frame in a list of word numbers, taken to another frame. -/
def moveWords (l : List Nat) (old new size : Nat) : List Nat :=
  l.filter (fun w => !(decide (new ≤ 8 * w) && decide (8 * w < new + size))) ++
    (l.filter (fun w => decide (old ≤ 8 * w) && decide (8 * w < old + size))).map (fun w => shiftKey old new (8 * w) / 8)

/-- Copies a frame to another (R281). -/
def State.copyFrame (s : State) (old new size : Nat) : State :=
  let inside (base k : Nat) : Bool := decide (base ≤ k) && decide (k < base + size)
  let kept := s.mem.filter (fun c => !inside new c.1)
  let mem := (s.mem.filter (fun c => inside old c.1)).foldl (fun m c => memSet m (shiftKey old new c.1) c.2) kept
  { s with mem := mem, bad := moveWords s.bad old new size, soft := moveWords s.soft old new size }

/-- An item with the key of its continuation record changed. -/
def Item.rekey (f : Nat → Nat) (it : Item) : Item := { it with record := it.record.map f }

/-- A core with the keys of its items' continuation records, and of its threads' monitors, changed. -/
def Core.rekey (f : Nat → Nat) (c : Core) : Core :=
  let thread (t : Thread) : Thread :=
    { t with item := t.item.map (Item.rekey f), heldItem := t.heldItem.map (Item.rekey f), stolen := t.stolen.map (Item.rekey f),
             monitors := t.monitors.map (fun m => { m with key := f m.key }) }
  { c with threads := c.threads.map thread, input := c.input.map (Item.rekey f),
           deques := c.deques.map (fun d => { d with items := d.items.map (Item.rekey f) }) }

/-- An item with the key of the continuation record, or of the monitored granule, that it names changed. -/
def Body.rekey (f : Nat → Nat) : Body → Body
  | .item d it => .item d (it.rekey f)
  | .seal it => .seal (it.rekey f)
  | .notice k g => .notice (f k) g
  | .stolen g n it => .stolen g n (it.map (Item.rekey f))
  | .monArm n k ts => .monArm n (f k) ts
  | b => b

/-- What engines, cores and messages know a continuation record or a monitored granule by follows it to where it is held now (R259, R281,
R305, R337). -/
def State.rekeyRecords (s : State) (f : Nat → Nat) : State :=
  { s with work := s.work.map (fun w => { w with body := w.body.rekey f }),
           saves := s.saves.map (fun x => { x with core := x.core.rekey f }),
           cores := s.cores.map (fun (c : Nat × Core) => (c.1, c.2.rekey f)),
           dies := s.dies.map (fun (d : Nat × Die) => (d.1, { d.2 with records := d.2.records.map (fun r => { r with key := f r.key }) })) }

/-- The item's operation has ended with a status, which is still to be written. -/
def endMigration (s : State) (w : Work) (release : Bool) (old new size status tag v : Nat) : Out :=
  .next (s.replaceWork { w with arrived := none, body := .migrate release old new size status tag (some v) })

/-- MIGRATE: the regions with a byte in the frame apply, and the frame is copied and forwarded (R281). Nothing arrives for
it in between. -/
def execMigrate (k : Nat) (s : State) : Out :=
  match s.findWork k with
  | none => .fault .noSuchEvent
  | some w =>
    match w.body with
    | .migrate false old new size status tag none =>
      if s.frameAbsent old size || s.frameAbsent new size then endMigration s w false old new size status tag 0x17
      else
        let s := (s.touchFrame old size).touchFrame new size
        regionStep s w fun s =>
          let s := s.copyFrame old new size
          let s := s.rekeyRecords (fun k => if old ≤ k ∧ k < old + size then shiftKey old new k else k)
          endMigration { s with forwards := s.forwards ++ [(old, new, size)] } w false old new size status tag 0
    | _ => .fault .noSuchEvent

/-- RELEASE removes the forwarding entry of a frame (R281). -/
def execRelease (k : Nat) (s : State) : Out :=
  match s.findWork k with
  | none => .fault .noSuchEvent
  | some w =>
    match w.body with
    | .migrate true old new size status tag none =>
      if s.frameAbsent old size then endMigration s w true old new size status tag 0x17
      else endMigration { s with forwards := s.forwards.filter (fun f => f.1 != old) } w true old new size status tag 0
    | _ => .fault .noSuchEvent

/-- Writes a STATUS word, and then, as a step of its own, sets the tag (R281, R335). -/
def State.report (s : State) (w : Work) (status tag v : Nat) : State :=
  if w.arrived.isNone then (s.writeHome status 8 v (bytesMask 8)).replaceWork { w with arrived := some s.tick }
  else (s.setTag (s.coreAt w.core) tag).dropWork w.id

/-- The end of a migration: STATUS, then the tag (R281). -/
def execMigrationCompletion (k : Nat) (s : State) : Out :=
  match s.findWork k with
  | none => .fault .noSuchEvent
  | some w =>
    match w.body with
    | .migrate _ _ _ _ status tag (some v) => .next (s.report w status tag v)
    | _ => .fault .noSuchEvent

end Sys2Proof.Machine
end

