-- ==== Sys2Proof/Machine/Preempt.lean ====
section
/-! DEFINITION. Pre-emption: saving, restoring and moving cores (24 R334-R337). -/

set_option Elab.async false

namespace Sys2Proof.Machine

open Sys2Proof

/-! ## Issue (R334) -/

/-- The bytes of a save record (R335). -/
def recordSize : Nat := 320 * 1024

/-- The lines of an access, each as an access. -/
def Access.lines (a : Access) : List Access := (cutLines a.key a.n 0 (a.n / 64 + 2)).map (fun p => { a with key := p.1, n := p.2.1 })

/-- What reads at issue must have done first, in every line (R196, R289): whether it has been done, with what they begin. -/
def State.beforeReads (s : State) (l : List Access) : Bool × State :=
  (l.flatMap Access.lines).foldl (fun acc a =>
    let (b, s) := acc.2.beforeRead a
    (acc.1 && b && acc.2.readable a.key a.n && !acc.2.readPasses a, s)) (true, s)

/-- A list of n core identifiers at a window 0 or 1 or a global address, read at issue: `some none` where the thread must
wait for what it has begun, none where the address or the list fails (R310, R334). -/
def State.coreList (s : State) (ea : Word) (n : Nat) : Option (Option (List Nat)) × State :=
  if ea.toNat / 2 ^ 56 = 0xF0 then
    match s.rawRun ea (2 * n) 0x14 with
    | .error _ => (none, s)
    | .ok r =>
      if !s.runReadable r then (some none, s)
      else
        let (x, _, s) := s.readRun s.curCore r
        ((placesOf x n).map some, s)
  else
    match s.translateAll ea.toNat (2 * n) { r := true } with
    | (.error _, s) => (none, s)
    | (.ok l, s) =>
      match s.beforeReads l with
      | (false, s) => (some none, s)
      | (true, s) =>
        if !s.readTurn (l.map (fun a => (a.key, a.n))) then (some none, s) else
        let s := (l.foldl (fun s a => s.touchRange a.key a.n) s).applyNow (l.map (fun a => (a.key, a.n)))
        let (x, _, s) := s.engineReads s.curCore s.tick l
        ((placesOf x n).map some, s)

/-- The instruction waits for a list to be read: what must be done first has begun. -/
def State.parkForList (s : State) (ea : Word) (n : Nat) : State := (s.coreList ea n).2.park

/-- The fields of a pre-emption descriptor within their limits (R334). -/
def preemptFieldsOk (x : Nat) : Bool :=
  let n := byteField x 17 16
  let op := byteField x 18 18
  let spuse := byteField x 23 20
  let m := byteField x 33 32
  decide (1 ≤ n ∧ n ≤ 2048 ∧ op ≤ 3 ∧ byteField x 19 19 ≤ 63) && (op != 2 || (n == 1 && m == 1)) &&
  decide (2 ^ 14 ≤ spuse ∧ spuse ≤ 2 ^ 18 ∧ 1 ≤ m ∧ m ≤ n) && spuse % 2 ^ 14 == 0 && byteField x 7 0 % 64 == 0 &&
  byteField x 39 34 == 0 && byteField x 63 48 == 0

/-- A write of cr.psave: the descriptor and its lists are read at issue, and the save area is translated (R334). -/
def writePsave (a : Opd) (s : State) : Out :=
  withCopyDesc a s fun s0 ea x s =>
    let n := byteField x 17 16
    let op := byteField x 18 18
    let tag := byteField x 19 19
    let bad : Out := .next (s.trapFrom s0 0x6A ea)
    if !preemptFieldsOk x then bad
    else if !s.tagSet tag then .next ((s.readFrom s0).parkWith (.item (x + 2 ^ 512 * ea.toNat)))
    else
      let needsArea := op ≠ 3
      let needsDest := op = 1 ∨ op = 2
      let at_ := BitVec.ofNat 64 (byteField x 15 8)
      match s.coreList at_ n with
      | (none, _) => bad
      | (some none, _) => .next (s0.parkForList at_ n)
      | (some (some list), s) =>
        match (if needsDest then s.coreList (BitVec.ofNat 64 (byteField x 31 24)) (byteField x 33 32) else (some (some []), s)) with
        | (none, _) => bad
        | (some none, _) => .next (s0.parkForList (BitVec.ofNat 64 (byteField x 31 24)) (byteField x 33 32))
        | (some (some dests), s) =>
          match (if needsArea then s.translateAll (byteField x 7 0) ((n + 1) * recordSize) (if op = 1 then { r := true } else { r := true, w := true })
              else (.ok [], s)) with
          | (.error _, _) => bad
          | (.ok area, s) =>
            .next ((s.clearTag tag).send 0 [] false (.preempt op area list dests (byteField x 23 20) (s.blockKey ea + 40) tag 0 none)).complete

/-- A pre-emption item with its stage and answer changed. -/
def Work.preemptAt (w : Work) (stage : Nat) (answer : Option Nat) : Work :=
  match w.body with
  | .preempt op area list dests spuse status tag _ _ => { w with arrived := none, body := .preempt op area list dests spuse status tag stage answer }
  | _ => w

/-! ## Stopping and draining (R335 steps 1 to 4) -/

/-- A slot that a halt has stopped, or is about to, is stopped by the save instead. -/
def Thread.takenOver (t : Thread) : Thread :=
  { t with mark := if t.slot = .stopped ∧ t.mark = .byHalt then .bySave else t.mark,
           stopping := if t.stopping = some .byHalt then some .bySave else t.stopping }

/-- Stops every running slot of the saved cores. -/
def State.stopCores (s : State) (list : List Nat) : State :=
  list.foldl (fun s c => (List.range 16).foldl (fun s i =>
    (s.setThreadAt c i (s.threadAt c i).takenOver).stopSlot c i .bySave) s) s

/-- The slot is READY or PARKED. -/
def Thread.running (t : Thread) : Bool := t.slot == .ready || t.slot == .parked

/-- A slot of the saved cores satisfies a condition. -/
def State.someSlot (s : State) (list : List Nat) (p : Thread → Bool) : Bool := list.any (fun c => (s.core c).threads.toList.any p)

/-- Nothing of the saved cores is in flight but the operation itself. -/
def State.drained (s : State) (k : Nat) (list : List Nat) : Bool := s.work.all (fun w => w.id == k || !list.contains w.core)

/-- The colour an item carries: that of its source's partition when it was sent. -/
def State.colourOf (s : State) (w : Work) : BitVec 4 :=
  let p := s.partAt w.core
  ((p.colours.reverse.find? (fun q => decide (w.id < q.1))).map (·.2)).getD p.colour

/-- No router holds a packet of the colour of a core's job, whoever sent it (log 72): nothing that has been sent is on its way, but what
is held for a move (R337). -/
def State.networkQuiet (s : State) (core : Nat) : Bool :=
  s.work.all (fun w => !(w.request && !w.unsent && !s.holdsArrival w && w.arrived.isNone && decide (w.home < 2 ^ 80) && s.colourOf w == (s.partAt core).colour))

/-- Starts the write-backs that the saved cores' release makes (R112), and ends their leases (R201, R332). -/
def State.releaseCores (s : State) (list : List Nat) : State :=
  list.foldl (fun s c =>
    let s := s.writeBackAll (clusterOf c) (fun x => x.writers.getLsbD (posOf c))
    let s := (List.range 16).foldl (fun s i => s.endLease c i) s
    { s with phraseLeases := s.phraseLeases.map (fun l => if l.core = c then { l with ended := true } else l) }) s

/-! ## Records (R335 step 5) -/

/-- The bytes of a record as the device lays it out, and its digest (log 10). -/
def saveRecord (content : List Nat) : List Byte :=
  let body := (Config.saveLayout content ++ List.replicate recordSize 0).take (recordSize - 64)
  body ++ (Config.shake256 body 64 ++ List.replicate 64 0).take 64

/-- Bytes as a little-endian number. -/
def bytesNat (l : List Byte) : Nat := packCodes 8 (l.map (·.toNat))

/-- The words of a core's first n scratchpad bytes that are full, by their number. -/
def State.fullWords (s : State) (core n : Nat) : List Nat :=
  (List.range (n / 8)).filter (fun i => s.isFull (scratchKey core (8 * i)))

/-- What a save record holds of a core. -/
def State.saved (s : State) (num core spuse : Nat) : Saved :=
  ⟨num, core, s.core core, s.readNat (scratchKey core 0) spuse, s.fullWords core spuse⟩

/-- Writes n bytes from an offset of a range of accesses, at their homes. -/
def State.writeArea (s : State) (core : Nat) (area : List Access) (off data n : Nat) : State :=
  s.writePieces core data (sliceOf (area.map (fun a => (a.key, a.n, a.via))) off n)

/-- Reads n bytes from an offset of a range of accesses. -/
def State.readArea (s : State) (core stamp : Nat) (area : List Access) (off n : Nat) : Nat × Bool × State :=
  s.readPieces core stamp (sliceOf (area.map (fun a => (a.key, a.n, a.via))) off n)

/-- Writes the saved cores' records and the header record. -/
def State.writeRecords (s : State) (w : Work) (area : List Access) (list : List Nat) (spuse : Nat) : State :=
  let first := s.saves.length
  let s := list.zipIdx.foldl (fun s p =>
    let x := s.saved (first + p.2) p.1 spuse
    let s := s.writeArea w.core area (p.2 * recordSize) (bytesNat (saveRecord [first + p.2])) recordSize
    { s with saves := x :: s.saves }) s
  s.writeArea w.core area (list.length * recordSize) (bytesNat (saveRecord (first :: list))) recordSize

/-- What the record holds leaves the core: its slots become EMPTY, its queues, deques, input and mailbox too. -/
def State.vacate (s : State) (core : Nat) : State :=
  let c := s.core core
  s.setCore core { c with threads := Vector.replicate 16 {}, queues := Vector.replicate 8 [], deques := [], input := [], steals := [],
                          emitPtr := [], emitParked := [], mailbox := [], inbox := [], laneRuns := [] }

/-- The stages of a save (R335): stop, and again what has begun to run meanwhile; then, once stopped and drained, release; then, once drained again and no router holds
a packet of the colour, write the records. `finish` says what follows. -/
def saveStage (s : State) (k : Nat) (w : Work) (area : List Access) (list : List Nat) (spuse stage : Nat) (finish : State → Out) : Out :=
  match stage with
  | 0 =>
    if !list.all s.present then .next (s.replaceWork (w.preemptAt 0 (some 0x17)))
    else .next ((s.stopCores list).replaceWork (w.preemptAt 1 none))
  | 1 =>
    if s.someSlot list (fun t => t.running && t.stopping.isNone) then .next (s.stopCores list)
    else if s.someSlot list Thread.running || !s.drained k list then .fault .noSuchEvent
    else .next ((s.releaseCores list).replaceWork (w.preemptAt 2 none))
  | _ =>
    if !s.drained k list || !s.networkQuiet w.core then .fault .noSuchEvent
    else
      let ranges := area.map (fun a => (a.key, a.n))
      clearSteps s w.core ranges fun s => regionStep s w fun s =>
        finish ((ranges.foldl (fun s r => s.touchRange r.1 r.2) s).writeRecords w area list spuse)

/-- SAVE (R335). -/
def execSave (k : Nat) (s : State) : Out :=
  match s.findWork k with
  | none => .fault .noSuchEvent
  | some w =>
    match w.body with
    | .preempt 0 area list _ spuse _ _ stage none =>
      saveStage s k w area list spuse stage fun s => .next ((list.foldl State.vacate s).replaceWork (w.preemptAt 3 (some 0)))
    | _ => .fault .noSuchEvent

/-! ## Restoring (R336) -/

/-- The saved core that a record's bytes stand for, the latest one written so. -/
def State.findSaved (s : State) (x : Nat) : Option Saved := s.saves.find? (fun v => bytesNat (saveRecord [v.num]) == x)

/-- A record passes its digest. -/
def digestOk (x : Nat) : Bool :=
  let body := (unpackCodes 8 x (recordSize - 64)).map (BitVec.ofNat 8)
  decide (x / 2 ^ (8 * (recordSize - 64)) = bytesNat ((Config.shake256 body 64 ++ List.replicate 64 0).take 64))

/-- The records of a save area. -/
def State.records (s : State) (w : Work) (area : List Access) (n : Nat) : List Nat × State :=
  (List.range n).foldl (fun acc i =>
    let (x, _, s) := acc.2.readArea w.core w.stamp area (i * recordSize) recordSize
    (acc.1 ++ [x], s)) ([], s)

/-- The slots of a saved core that hold a thread. -/
def Saved.live (v : Saved) : List Nat := (List.range 16).filter (fun i => (v.core.thread i).slot != .empty)

/-- A fold of a group onto a destination is allowed (R336). -/
def State.foldOk (s : State) (group : List Saved) (dest spuse : Nat) : Bool :=
  decide (group.length * spuse ≤ 2 ^ 18) &&
  group.all (fun v => clusterOf v.from_ == clusterOf dest && decide (posOf v.from_ ≤ posOf dest) &&
    v.core.queues.toList.all List.isEmpty && v.core.roles == 0 && v.core.win == (match group with | x :: _ => x.core.win | [] => v.core.win)) &&
  decide ((group.map (fun v => v.live.length)).foldl (· + ·) 0 ≤
    ((List.range (contexts (s.core dest).mode)).filter (fun i => (s.threadAt dest i).slot == .empty)).length)

/-- A key of a saved core's scratchpad as the restored core holds it. -/
def rebase (from_ dest off key : Nat) : Nat :=
  if isScratch key ∧ coreOfKey key = from_ then scratchKey dest (localOf key + off) else key

/-- An access as the restored core makes it. -/
def Access.rebased (a : Access) (from_ dest off : Nat) : Access := { a with key := rebase from_ dest off a.key }

/-- A kept access as the restored core makes it. -/
def Work.rebased (w : Work) (from_ dest off : Nat) : Work :=
  let f (a : Access) : Access := a.rebased from_ dest off
  let body : Body := match w.body with
    | .fe op a dst x => .fe op (f a) dst x
    | .load l got len bad dst ext => .load (l.map f) got len bad dst ext
    | .store a x m => .store (f a) x m
    | .amo op a dst x e => .amo op (f a) dst x e
    | .bank fn d x v y n fmt sat got line g =>
      .bank fn (rebase from_ dest off d) (x.map (rebase from_ dest off)) v y n fmt sat got line g
    | b => b
  { w with body := body, holds := w.holds.map (fun h => (rebase from_ dest off h.1, h.2)) }

/-- A saved thread as it is restored: its segment, its kept accesses, its monitors, and a graph that has ended meanwhile
(R314, R336). -/
def State.restoredThread (s : State) (v : Saved) (dest off : Nat) (t : Thread) : Thread :=
  let seg := ((2 ^ 22 + posOf dest * 2 ^ 18 - posOf v.from_ * 2 ^ 18) + off) % 2 ^ 22
  { t with
    seg := seg, competes := false,
    withdrawn := t.withdrawn.map (fun w => w.rebased v.from_ dest off),
    monitors := t.monitors.map (fun m => { m with key := rebase v.from_ dest off m.key, registered := true, hit := true }),
    member := t.member.map (fun m => if (s.graphOf m.graph).isNone then { m with ended := true } else m) }

/-- A kept access to global memory as it is made after a restore: through a translation made afresh, since an invalidation may have passed
while the access stood in the record (R15, R266). DESIGN CHOICE (log 107): where its address has no usable translation any more, a store
is dropped and counted, and a load or an atomic returns zero and is counted. -/
def State.renewed (s : State) (core : Nat) (t : Thread) (w : Work) : Option Work × State :=
  let again (a : Access) (write home : Bool) : Option Access × State :=
    match s.translate core t.asid.toNat t.pgroot.toNat (!(t.priv || t.hm)) false a.ea.toNat { r := !write || home, w := write } with
    | (.error _, s) => (none, s)
    | (.ok tr, s) =>
      let k := tr.keyOf a.ea.toNat
      (if s.reachable core k then some { a with key := k, via := if home || bits tr.pte 9 8 == 1 then .home else .cached, trans := [tr] }
        else none, s)
  let lost (s : State) (a : Access) (dst : Dst) : Option Work × State :=
    (some { w with deps := [], acquire := false, holds := [], body := .ret dst 0 none 0 [] }, s.countUnc core (wordsOf a.key a.n).length)
  match w.body with
  | .load [a] got len bad dst ext =>
    if a.via = .scratch then (some w, s)
    else
      match again a false false with
      | (some b, s) => (some { w with body := .load [b] got len bad dst ext }, s)
      | (none, s) => lost s a dst
  | .store a x m =>
    if a.via = .scratch then (some w, s)
    else
      match again a true false with
      | (some b, s) => (some { w with body := .store b x m }, s)
      | (none, s) => (none, s.countDropM core)
  | .amo op a dst x e =>
    if a.via = .scratch then (some w, s)
    else
      match again a true true with
      | (some b, s) => (some { w with body := .amo op b dst x e }, s)
      | (none, s) => lost s a dst
  | _ => (some w, s)

/-- The kept accesses of a restored thread as it makes them. -/
def State.renewAll (s : State) (core slot : Nat) : State :=
  let t := s.threadAt core slot
  let (l, s) := t.withdrawn.foldl (fun (acc : List Work × State) w =>
    let (x, s) := acc.2.renewed core t w
    (acc.1 ++ x.toList, s)) ([], s)
  s.setThreadAt core slot { t with withdrawn := l }

/-- Deques of two members are one: items of a stage come together. -/
def mergeDeques (a b : List Deque) : List Deque :=
  b.foldl (fun l d => if l.any (fun x => x.graph == d.graph && x.stage == d.stage)
    then l.map (fun x => if x.graph = d.graph ∧ x.stage = d.stage then { x with items := x.items ++ d.items } else x)
    else l ++ [d]) a

/-- The first SPUSE bytes of a member's scratchpad, and their full/empty bits, reach its share of the destination's. -/
def State.restoreBytes (s : State) (v : Saved) (dest off spuse : Nat) : State :=
  let s := s.writeBytes (scratchKey dest off) spuse v.bytes (bytesMask spuse)
  (List.range (spuse / 8)).foldl (fun s i => s.setFull (scratchKey dest (off + 8 * i)) (v.full.contains i)) s

/-- A core's own state as a single restored member gives it (R335, R336). -/
def Core.takeAll (c x : Core) : Core :=
  { c with roles := x.roles, lock := x.lock, queues := x.queues, qmin := x.qmin, qcap := x.qcap, win := x.win, tags := x.tags,
           copies := x.copies, qwait := x.qwait, search := x.search, fsteal := x.fsteal, run := x.run, cycles := x.cycles,
           evCount := x.evCount, evSel := x.evSel, emitPtr := x.emitPtr, steals := x.steals, laneRuns := x.laneRuns }

/-- What the members of a fold share takes the first member's values; the counters that the manual gives no rule for become
free values (log 6). -/
def State.takeShared (s : State) (dest : Nat) (x : Core) : State :=
  let n := s.freeCtr
  let v (i : Nat) : Word := BitVec.ofNat 64 (Config.freeNat (n + i))
  let c := s.core dest
  let copies : Vector CopyCtx 4 := Vector.ofFn (fun i => ⟨(v i.val).toNat, (v i.val).toNat⟩)
  let counts : Vector Word 4 := Vector.ofFn (fun i => v (9 + i.val))
  let c := { c with qmin := x.qmin, qcap := x.qcap, win := x.win, tags := x.tags, lock := x.lock, copies := copies }
  let c := { c with qwait := v 4, search := v 5, fsteal := v 6, run := v 7, cycles := v 8, evCount := counts, evSel := x.evSel }
  { s.setCore dest c with freeCtr := n + 16 }

/-- A restored slot resumes, unless control stopped it; while the partition is halted the halt has stopped it (R336, R339). -/
def State.restart (s : State) (core slot : Nat) : State :=
  let t := s.threadAt core slot
  if t.slot ≠ .stopped ∨ t.mark = .byControl then s
  else if s.halted core then s.setThreadAt core slot { t with mark := .byHalt }
  else s.resumeSlot core slot

/-- Restores one member of a group: its threads take the destination's lowest free slots (R336). -/
def State.restoreMember (s : State) (v : Saved) (dest i spuse : Nat) : State :=
  let off := i * spuse
  let s := s.restoreBytes v dest off spuse
  let c := s.core dest
  let c := { c with deques := mergeDeques c.deques v.core.deques, input := v.core.input ++ c.input,
                    mailbox := v.core.mailbox ++ c.mailbox, inbox := v.core.inbox ++ c.inbox }
  let free := (List.range (contexts c.mode)).filter (fun j => (c.thread j).slot == .empty)
  let pairs := v.live.zip free
  let c := pairs.foldl (fun c p => c.setThread p.2 (s.restoredThread v dest off (v.core.thread p.1))) c
  let s := s.setCore dest c
  let s : State := if v.from_ = dest then s else { s with restored := (v.from_, dest) :: s.restored.filter (fun p => p.1 != v.from_) }
  pairs.foldl (fun s p => (s.renewAll dest p.2).restart dest p.2) s

/-- Restores a group onto its destination. -/
def State.restoreGroup (s : State) (group : List Saved) (dest spuse : Nat) : State :=
  match group with
  | [] => s
  | x :: rest =>
    let s := { s with restored := s.restored.filter (fun p => p.1 != dest) }
    let s := if rest.isEmpty then s.setCore dest ((s.core dest).takeAll x.core) else s.takeShared dest x.core
    group.zipIdx.foldl (fun s p => s.restoreMember p.1 dest p.2 spuse) s

/-- The checks of a restore, in order, and its effect: the STATUS it ends with (R336). -/
def State.restoreAll (s : State) (w : Work) (area : List Access) (n : Nat) (dests : List Nat) (spuse : Nat) : Nat × State :=
  let f := n / dests.length
  let (recs, s) := s.records w area n
  let found := recs.map s.findSaved
  let groups := dests.zipIdx.map (fun p => (p.1, ((found.filterMap id).drop (p.2 * f)).take f))
  if !dests.all s.present then (0x17, s)
  else if n % dests.length ≠ 0 ∨ 16 < f then (0x6A, s)
  else if !recs.all digestOk || found.any (·.isNone) then (0x73, s)
  else if groups.any (fun g => !s.quiescent g.1 || g.2.any (fun v => v.core.mode != (s.core g.1).mode)) then (0x72, s)
  else if groups.any (fun g => (decide (1 < f) && !s.foldOk g.2 g.1 spuse) ||
      decide (((List.range (contexts (s.core g.1).mode)).filter (fun i => (s.threadAt g.1 i).slot == .empty)).length <
        (g.2.map (fun v => v.live.length)).foldl (· + ·) 0)) then (0x6A, s)
  else (0, groups.foldl (fun s g => s.restoreGroup g.2 g.1 spuse) s)

/-- RESTORE (R336). -/
def execRestore (k : Nat) (s : State) : Out :=
  match s.findWork k with
  | none => .fault .noSuchEvent
  | some w =>
    match w.body with
    | .preempt 1 area list dests spuse _ _ _ none =>
      sourceSteps s w.core (area.map Access.piece) fun s => regionStep s w fun s =>
        let s := (area.map (fun a => (a.key, a.n))).foldl (fun s r => s.touchRange r.1 r.2) s
        let (v, s) := s.restoreAll w area list.length dests spuse
        .next (s.replaceWork (w.preemptAt 3 (some v)))
    | _ => .fault .noSuchEvent

/-! ## Moving (R337) -/

/-- MOVE: a save, a restore onto the destination, and then the forwarding entry (R337); monitors of the moved scratchpad stand at its new
home (R259). -/
def execMove (k : Nat) (s : State) : Out :=
  match s.findWork k with
  | none => .fault .noSuchEvent
  | some w =>
    match w.body with
    | .preempt 2 area list dests spuse _ _ stage none =>
      saveStage s k w area list spuse stage fun s =>
        match list, dests with
        | [from_], [dest] =>
          let (v, s') := s.restoreAll w area 1 [dest] spuse
          if v ≠ 0 then .next (s.replaceWork (w.preemptAt 3 (some v)))
          else
            let s := s'.vacate from_
            let others (l : List (Nat × Nat)) : List (Nat × Nat) := l.filter (fun p => p.1 != from_)
            let s := { s with moved := others s.moved ++ [(from_, dest)], restored := others s.restored }
            let s := s.rekeyRecords (fun k => rebase from_ dest 0 k)
            .next (s.replaceWork (w.preemptAt 3 (some 0)))
        | _, _ => .fault .noSuchEvent
    | _ => .fault .noSuchEvent

/-- UNFWD removes the forwarding entry of a moved core (R337). -/
def execUnfwd (k : Nat) (s : State) : Out :=
  match s.findWork k with
  | none => .fault .noSuchEvent
  | some w =>
    match w.body with
    | .preempt 3 _ list _ _ _ _ _ none =>
      if !list.all s.present then .next (s.replaceWork (w.preemptAt 3 (some 0x17)))
      else .next (({ s with moved := s.moved.filter (fun p => !list.contains p.1) } : State).replaceWork (w.preemptAt 3 (some 0)))
    | _ => .fault .noSuchEvent

/-- The end of a pre-emption operation: STATUS, then the tag (R335). -/
def execPreemptionCompletion (k : Nat) (s : State) : Out :=
  match s.findWork k with
  | none => .fault .noSuchEvent
  | some w =>
    match w.body with
    | .preempt _ _ _ _ _ status tag _ (some v) => .next (s.report w status tag v)
    | _ => .fault .noSuchEvent

end Sys2Proof.Machine
end

