-- ==== Sys2Proof/Machine/System.lean ====
section
/-! DEFINITION. Traps, the return from one, control registers, halting, breakpoints and counters (07 R99, 08 R113-R125,
10 R130, R140, 24 R334-R342). -/

set_option Elab.async false

namespace Sys2Proof.Machine

open Sys2Proof

/-! ## Fields of the control registers (R6, R7, R113) -/

/-- The bits of a register by their access code: RW, RWP, W1C; every other bit is RO, WO or reserved. -/
structure CrFields where
  rw : Nat := 0
  rwp : Nat := 0
  w1c : Nat := 0
deriving DecidableEq, Repr

/-- All 64 bits. -/
def allBits : Nat := 2 ^ 64 - 1

/-- The fields of every control register (R60, R68, R99, R113, R122, R130, R140, R157, R187, R188, R202, R273, R280, R334,
R338, R341, R355). -/
def crFields (n : Nat) : CrFields :=
  match n with
  | 0x002 => { rwp := allBits }
  | 0x005 => { rwp := 4 }
  | 0x006 => { rwp := allBits - 3 }
  | 0x010 => { rw := 0xFF1F }
  | 0x011 => { rw := 2 ^ 32 - 1, w1c := 2 ^ 63 }
  | 0x020 => { rwp := 2 ^ 22 - 2 ^ 6 }
  | 0x021 => { rwp := 2 ^ 16 - 1 }
  | 0x030 => { rwp := allBits - (2 ^ 32 - 1) + 4 }
  | 0x031 | 0x032 => { rwp := allBits }
  | 0x041 => { rwp := 2 ^ 32 - 1 }
  | 0x042 => { rwp := allBits }
  | 0x043 => { rwp := 1 }
  | 0x088 => { rw := 2 ^ 32 - 1 }
  | 0x090 => { rwp := 2 ^ 32 - 1 }
  | 0x0A0 | 0x0B1 => { rwp := allBits }
  | 0x0A1 => { rwp := 0xFF * 2 ^ 56 + (2 ^ 48 - 2 ^ 12) }
  | 0x0B0 => { rwp := 15 }
  | 0x0B2 => { rwp := 7 }
  | 0x0B4 | 0x0B5 | 0x0B6 | 0x0B7 => { rwp := 3 * 2 ^ 62 + 3 * 2 ^ 56 + 0x7F * 2 ^ 40 + 0x7FF, w1c := 2 ^ 61 }
  | 0x0C0 | 0x0C1 => { rwp := 0x1FFF * 2 ^ 16 + 0xFFF }
  | _ => if 0x080 ≤ n ∧ n ≤ 0x087 then { rw := 2 ^ 63 + 2 ^ 29 - 2 ^ 24 + 0x1F * 2 ^ 16 + 0xFFFF } else {}

/-- cr.cause and cr.cause2 hold a code of seven bits. -/
def Thread.tstat (t : Thread) : Nat :=
  (if t.priv then 8 else 0) + (if t.phm then 4 else 0) + (if t.hm then 2 else 0) + (if t.unread then 1 else 0)

/-- The ROLES bits of the slots that a mode has (R130). -/
def roleMask (mode : Nat) : Nat := 2 ^ (2 * contexts mode) - 1

/-- A control register as `cr.rd` gives it: WO and reserved fields read 0 (R6, R7). A register of a partition is that of the acting
thread's. -/
def State.crRead (s : State) (n : Nat) : Word :=
  let t := s.src
  let c := s.me
  let p := s.partAt s.curCore
  let lex (i : Nat) : Word := BitVec.ofNat 64 (vget p.lexBase i 0 + vget p.lexNum i 0 * 2 ^ 16)
  match n with
  | 0x000 => t.cause.setWidth 64
  | 0x001 => t.cause2.setWidth 64
  | 0x002 => t.tpc
  | 0x003 => t.taddr
  | 0x004 => t.tinfo
  | 0x005 => BitVec.ofNat 64 t.tstat
  | 0x006 => t.tvec
  | 0x010 => BitVec.ofNat 64 (t.rm.toNat * 2 ^ 13 + t.enables.toNat * 2 ^ 8 + t.fflags.toNat)
  | 0x011 => t.oob
  | 0x020 => BitVec.ofNat 64 t.seg
  | 0x021 => t.asid.setWidth 64
  | 0x022 => c.tags
  | 0x030 => BitVec.ofNat 64 (c.roles.toNat % 2 ^ (2 * contexts c.mode) * 2 ^ 32 + c.live * 2 ^ 16 +
      (if s.quiescent s.curCore then 8 else 0) + (if c.lock then 4 else 0) + c.mode)
  | 0x031 => c.qmin
  | 0x032 => c.qcap
  | 0x040 => s.cap.setWidth 64
  | 0x041 => p.rquota.setWidth 64
  | 0x042 => BitVec.ofNat 64 (c.corr * 2 ^ 48 + c.unc * 2 ^ 32 + c.dropp * 2 ^ 16 + c.dropm)
  | 0x043 => if p.etrap then 1 else 0
  | 0x088 => t.srs.setWidth 64
  | 0x090 => (s.array s.curCore).limit.setWidth 64
  | 0x0A1 => t.pgroot
  | 0x0B0 => p.colour.setWidth 64
  | 0x0B2 => BitVec.ofNat 64 ((if p.bhalt then 4 else 0) + (if p.brken then 2 else 0) + (if p.halted then 1 else 0))
  | 0x0B4 | 0x0B5 | 0x0B6 | 0x0B7 => vget (s.die (dieOf s.curCore)).dbm (n - 0x0B4) 0
  | 0x0C0 => lex 0
  | 0x0C1 => lex 1
  | _ => if 0x080 ≤ n ∧ n ≤ 0x087 then vget c.win (n - 0x080) 0 else 0

/-- The eight bytes of a register. -/
def byteSum (x : Word) : Nat := ((List.range 8).map (queueByte x)).foldl (· + ·) 0

/-- Changes the slots that a lexicon register assigns, unless its range is too long (R355). -/
def Partition.setLex (p : Partition) (i x : Nat) : Partition :=
  let base := bits x 11 0
  let num := bits x 28 16
  if 4096 < base + num then p else { p with lexBase := vset p.lexBase i base, lexNum := vset p.lexNum i num }

/-- Changes the colour: what has been sent, the items below a number, keeps the one it left with (R334). -/
def Partition.setColour (p : Partition) (next : Nat) (c : BitVec 4) : Partition :=
  if c = p.colour then p else { p with colours := (next, p.colour) :: p.colours, colour := c }

/-- A register takes a new value of its writable fields, with the values it refuses (R99, R130, R140, R157, R355). -/
def State.crStore (s : State) (n : Nat) (x : Word) : State :=
  let t := s.thread
  let c := s.me
  let p := s.partAt s.curCore
  let y := x.toNat
  match n with
  | 0x002 => s.setThread { t with tpc := x }
  | 0x005 => s.setThread { t with phm := x.getLsbD 2 }
  | 0x006 => s.setThread { t with tvec := x }
  | 0x010 => s.setThread { t with
      rm := if bits y 15 13 ≤ 4 then BitVec.ofNat 3 (bits y 15 13) else t.rm,
      enables := BitVec.ofNat 5 (bits y 12 8), fflags := BitVec.ofNat 5 (bits y 4 0) }
  | 0x011 => s.setThread { t with oob := x }
  | 0x020 => s.setThread { t with seg := bits y 21 6 * 64 }
  | 0x021 => s.setThread { t with asid := BitVec.ofNat 16 y }
  | 0x030 =>
    let keep := c.roles &&& ~~~(BitVec.ofNat 32 (roleMask c.mode))
    s.setMe { c with roles := keep ||| (BitVec.ofNat 32 (y / 2 ^ 32) &&& BitVec.ofNat 32 (roleMask c.mode)), lock := x.getLsbD 2 }
  | 0x031 => if 256 < byteSum x then s else s.setMe { c with qmin := x }
  | 0x032 => s.setMe { c with qcap := x }
  | 0x041 => s.setPartAt s.curCore { p with rquota := BitVec.ofNat 32 y }
  | 0x042 => s.setMe { c with corr := bits y 63 48, unc := bits y 47 32, dropp := bits y 31 16, dropm := bits y 15 0 }
  | 0x043 => s.setPartAt s.curCore { p with etrap := x.getLsbD 0 }
  | 0x088 => s.setThread { t with srs := if y % 2 ^ 32 = 0 then 1 else BitVec.ofNat 32 y }
  | 0x090 => s.setArray s.curCore { s.array s.curCore with limit := BitVec.ofNat 32 y }
  | 0x0A1 => s.setThread { t with pgroot := x }
  | 0x0B0 => s.setPartAt s.curCore (p.setColour s.nextId (BitVec.ofNat 4 y))
  | 0x0B2 => s.setPartAt s.curCore { p with bhalt := x.getLsbD 2, brken := x.getLsbD 1 }
  | 0x0B4 | 0x0B5 | 0x0B6 | 0x0B7 =>
    let d := s.die (dieOf s.curCore)
    s.setDie (dieOf s.curCore) { d with dbm := vset d.dbm (n - 0x0B4) x }
  | 0x0C0 => s.setPartAt s.curCore (p.setLex 0 y)
  | 0x0C1 => s.setPartAt s.curCore (p.setLex 1 y)
  | _ => if 0x080 ≤ n ∧ n ≤ 0x087 then s.setMe { c with win := vset c.win (n - 0x080) x } else s

/-- The acting thread's partition is halted, or a halt of it is on its way. -/
def State.halting (s : State) : Bool :=
  s.halted s.curCore || s.work.any (fun w => w.body == .debug true && s.partOf w.core == s.partOf s.curCore)

/-- A write of cr.dbgc.HALT: 1 halts the partition, and 0 resumes it (R338). -/
def State.writeHalt (s : State) (n : Nat) (reached : Bool) (x : Word) : State :=
  if n = 0x0B2 ∧ reached then (if x.getLsbD 0 then s.sendHalt true else if s.halting then s.sendHalt false else s) else s

/-! ## Reading and writing them (R116, R123) -/

/-- A read of cr.oob waits for the thread's earlier view writes (R60). -/
def State.viewWrites (s : State) : Bool :=
  s.work.any (fun w => w.of s.curCore s.curSlot && (match w.body with
    | .handle (.st ..) _ | .handle (.cpT ..) _ => true
    | .copy j => j.kind == .tensor
    | _ => false))

/-- A read of cr.fflags waits for the thread's earlier bank commands (R221). -/
def State.bankFlags (s : State) : Bool :=
  s.work.any (fun w => w.of s.curCore s.curSlot && (match w.body with | .bank .. => true | _ => false))

/-- cr.rd: a read of cr.cause clears UNREAD in the same step (R116). -/
def readControl (a : Opd) (n : Nat) (s : State) : Out :=
  if !crAssigned n then .next (s.trap 0x01 0)
  else withOperands [⟨.scalar, .dst, a⟩] s fun s =>
    if (n = 0x011 ∧ s.viewWrites) ∨ (n = 0x010 ∧ s.bankFlags) then .next s.park
    else
      let x := s.crRead n
      let s := if n = 0x000 then s.setThread { s.thread with unread := false } else s
      .next (s.resultS a x true).complete

/-- cr.rd (R123). -/
def execCrRd (a : Opd) (n : BitVec 12) (s : State) : Out := readControl a n.toNat s

/-- A read of cr.cause as a step of its own (R116). -/
def execCauseRead (d : Opd) (s : State) : Out := readControl d 0x000 s

/-- A write of the bits that a word reaches of a register: its new value (R123). -/
def writeBits (a : Opd) (n reach : Nat) (new : Nat → Nat → Nat) (s : State) : Out :=
  let f := crFields n
  let (x, s) := s.readS a
  let old := (s.crRead n).toNat
  let m := (f.rw ||| f.rwp) &&& reach
  let y := (old &&& (allBits - m)) ||| (new old x.toNat &&& m)
  let y := y &&& (allBits - (f.w1c &&& reach &&& x.toNat))
  .next ((s.crStore n (BitVec.ofNat 64 y)).writeHalt n (reach.testBit 0) (BitVec.ofNat 64 y)).complete

/-- cr.wr: it reaches every field, so that its 0x04 does not depend on the operand; a write of cr.migd, cr.psave or cr.lexrel starts an
operation (R36, R123, R280, R334, R357). -/
def execCrWr (a : Opd) (n : BitVec 12) (s : State) : Out :=
  if !crAssigned n.toNat then .next (s.trap 0x01 0)
  else if n = 0x0C2 then lexrel a s
  else if (crFields n.toNat).rwp ≠ 0 ∧ !s.privileged then .next (s.trap 0x04 0)
  else if n = 0x0A0 then writeMigd a s
  else if n = 0x0B1 then writePsave a s
  else withOperands [⟨.scalar, .src, a⟩] s fun s => writeBits a n.toNat allBits (fun _ x => x) s

/-- cr.set and cr.clr reach the RW and RWP fields in which the mask has a bit (R123). DESIGN CHOICE (log 90): a bit of cr.migd.DESC or
cr.psave.DESC, which are RWP and WO, is ignored, and needs no privilege; R123, R280 and R334 do not say. -/
def maskControl (a : Opd) (n : Nat) (new : Nat → Nat → Nat) (s : State) : Out :=
  if !crAssigned n then .next (s.trap 0x01 0)
  else withOperands [⟨.scalar, .src, a⟩] s fun s0 =>
    let (x, s) := s0.readS a
    let f := crFields n
    let f := if n = 0x0A0 ∨ n = 0x0B1 then ({} : CrFields) else f
    if f.rwp &&& x.toNat ≠ 0 ∧ !s.privileged then .next (s0.trap 0x04 0)
    else
      let m := (f.rw ||| f.rwp) &&& x.toNat
      if m = 0 then .next s.complete
      else
        let old := (s.crRead n).toNat
        let y := BitVec.ofNat 64 ((old &&& (allBits - m)) ||| (new old x.toNat &&& m))
        .next ((s.crStore n y).writeHalt n (m.testBit 0) y).complete

/-- cr.set (R123). -/
def execCrSet (a : Opd) (n : BitVec 12) (s : State) : Out := maskControl a n.toNat (fun old x => old ||| x) s
/-- cr.clr (R123). -/
def execCrClr (a : Opd) (n : BitVec 12) (s : State) : Out := maskControl a n.toNat (fun old x => old &&& (allBits - x)) s

/-! ## trap, eret, halt and brk (R123-R125, R340) -/

/-- trap: the address saved is the one after it (R123). -/
def execTrap (n : BitVec 12) (s : State) : Out := .next (s.trapAt s.nextPc 0x05 0 (n.setWidth 64))

/-- eret (R124). -/
def execEret (s : State) : Out :=
  let target := s.src.tpc
  if target.toNat % 4 ≠ 0 then .next (s.trap 0x03 target)
  else needPrivilege s fun s =>
    if s.outstanding s.curCore s.curSlot then .next s.park else .next (s.trapReturn target)

/-- halt: marked; the thread leaves the rotation for good, and a lease that it holds ends (R125, R201). -/
def execHalt (s : State) : Out :=
  if !s.inPair && s.outstanding s.curCore s.curSlot then .next s.park
  else
    let s := s.complete
    .next ((s.setThread { s.thread with slot := .halted, competes := false }).endLease s.curCore s.curSlot)

/-- brk: a precise stop when the partition enables breakpoints, else a trap (R123, R340). -/
def execBrk (s : State) : Out :=
  if (s.partAt s.curCore).brken then
    let s := s.complete
    let s := s.stopSlot s.curCore s.curSlot .byControl
    .next (if (s.partAt s.curCore).bhalt then s.sendHalt true else s)
  else .next (s.trapAt s.nextPc 0x06 0 0)

/-- A word that no instruction of the tables is, or that stands where it may not: it issues and traps (R21, R35). -/
def execIllegalInstruction (s : State) : Out := .next (s.trap 0x01 0)

/-! ## Counters (R342) -/

/-- Counter n of the acting thread and its core. -/
def State.counter (s : State) (n : Nat) : Word :=
  let c := s.me
  let t := s.thread
  match n with
  | 0 => c.qwait
  | 1 => c.search
  | 2 => c.fsteal
  | 3 => c.run
  | 4 => t.fstall
  | 5 => t.issued
  | 6 => c.cycles
  | 7 => t.park
  | _ => vget c.evCount (n - 8) 0

/-- ctr.rd (R342). -/
def execCtrRd (a : Opd) (n : BitVec 6) (s : State) : Out :=
  if 11 < n.toNat then .next (s.trap 0x01 0)
  else withOperands [⟨.scalar, .dst, a⟩] s fun s => .next (s.resultS a (s.counter n.toNat) true).complete

/-- ctr.cfg: the event is the low byte of the operand, whose reserved codes are illegal (R342). -/
def execCtrCfg (a : Opd) (n : BitVec 6) (s : State) : Out :=
  if n.toNat < 8 ∨ 11 < n.toNat then .next (s.trap 0x01 0)
  else needPrivilege s fun s => withOperands [⟨.scalar, .src, a⟩] s fun s0 =>
    let (x, s) := s0.readS a
    if 8 ≤ x.toNat % 256 then .next (s0.trap 0x01 0)
    else .next (s.setMe { s.me with evSel := vset s.me.evSel (n.toNat - 8) (BitVec.ofNat 8 x.toNat) }).complete

/-- Clears the counters of a mask. -/
def State.clearCounters (s : State) (mask : Nat) : State :=
  let z (i : Nat) (x : Word) : Word := if mask.testBit i then 0 else x
  let c := s.me
  let counts : Vector Word 4 := Vector.ofFn (fun i => z (8 + i.val) c.evCount[i])
  let s := s.setMe { c with qwait := z 0 c.qwait, search := z 1 c.search, fsteal := z 2 c.fsteal, run := z 3 c.run,
                            cycles := z 6 c.cycles, evCount := counts }
  s.setThread { s.thread with fstall := z 4 s.thread.fstall, issued := z 5 s.thread.issued, park := z 7 s.thread.park }

/-- ctr.clr (R342). -/
def execCtrClr (a : Opd) (s : State) : Out :=
  needPrivilege s fun s => withOperands [⟨.scalar, .src, a⟩] s fun s0 =>
    let (x, s) := s0.readS a
    if 2 ^ 12 ≤ x.toNat then .next (s0.trap 0x01 0) else .next (s.clearCounters x.toNat).complete

end Sys2Proof.Machine
end

