-- ==== Sys2Proof/Machine/Debug.lean ====
section
/-! DEFINITION. Debug halts and resumes of a whole partition (24 R338, R339). -/

set_option Elab.async false

namespace Sys2Proof.Machine

open Sys2Proof

/-- Acts on every slot of a partition's cores. -/
def State.overPartition (s : State) (p : Nat) (act : State → Nat → Nat → State) : State :=
  (s.cores.filter (fun c => s.partOf c.1 == p)).foldl (fun s c => (List.range 16).foldl (fun s i => act s c.1 i) s) s

/-- Every running slot of a partition stops, marked stopped by halt (R339). -/
def State.haltAll (s : State) (p : Nat) : State :=
  let s := s.overPartition p (fun s c i => s.stopSlot c i .byHalt)
  s.setPartition p { s.partition p with halted := true }

/-- Exactly the slots stopped by halt resume (R339); a stop by halt that still waits is forgotten. -/
def State.resumeAll (s : State) (p : Nat) : State :=
  (s.setPartition p { s.partition p with halted := false }).overPartition p (fun s c i =>
    let t := s.threadAt c i
    if t.stopping = some .byHalt ∨ (t.slot = .stopped ∧ t.mark = .byHalt) then s.resumeSlot c i else s)

/-- A halt or a resume of a partition that a thread has sent. -/
def State.debugs (s : State) (p : Nat) (w : Work) : Bool :=
  match w.body with | .debug _ => s.partOf w.core == p | _ => false

/-- A halt or a resume that has been sent, with the partition it names: the item of a number, when no earlier one for its partition is
on its way, for they take effect in the order they were sent; or, for 0, the runtime's first request. -/
def State.takeDebug (s : State) (k : Nat) (halt : Bool) : Option (Nat × State) :=
  if k = 0 then
    (s.inputs.findSome? (fun i => match i with | .debugger p h => if h = halt then some p else none | _ => none)).map
      (fun p => (p, { s with inputs := s.inputs.erase (.debugger p halt) }))
  else
    match s.findWork k with
    | some w =>
      if w.body = .debug halt ∧ (s.work.find? (s.debugs (s.partOf w.core))).map (·.id) = some k then some (s.partOf w.core, s.dropWork k)
      else none
    | none => none

/-- The partition halts (R339). -/
def execDebugHalt (k : Nat) (s : State) : Out :=
  match s.takeDebug k true with
  | none => .fault .noSuchEvent
  | some (p, s) => .next (s.haltAll p)

/-- The partition resumes (R339). -/
def execDebugResume (k : Nat) (s : State) : Out :=
  match s.takeDebug k false with
  | none => .fault .noSuchEvent
  | some (p, s) => .next (s.resumeAll p)

end Sys2Proof.Machine
end

