-- ==== Sys2Proof/Machine/Package.lean ====
section
/-! DEFINITION. The package: reset and boot, Litar messages, links, and the power of channels (21 R291-R301). -/

set_option Elab.async false

namespace Sys2Proof.Machine

open Sys2Proof

/-! ## What the outside has sent -/

/-- Takes away the outside request of an index. -/
def State.dropInput (s : State) (k : Nat) : State := { s with inputs := s.inputs.eraseIdx k }

/-- Sends a reply on the port of a message, with its SEQ (R296). -/
def State.reply (s : State) (asker : ReplyTo) (status : Nat) (data : List Byte) : State := s.post [⟨asker, status, data⟩]

/-- Bytes hi to lo of a byte string, as a number. -/
def fieldOf (l : List Byte) (hi lo : Nat) : Nat := bytesNat ((l.drop lo).take (hi + 1 - lo))

/-- Bytes hi to lo of a message's header. -/
def Litar.field (m : Litar) (hi lo : Nat) : Nat := fieldOf m.header.toList hi lo

/-- TYPE, FLAGS, LENGTH, SEQ and PARTITION (R296). -/
def Litar.type (m : Litar) : Nat := m.field 0 0
def Litar.flags (m : Litar) : Nat := m.field 1 1
def Litar.length (m : Litar) : Nat := m.field 3 2
def Litar.seq (m : Litar) : Nat := m.field 7 4
def Litar.part (m : Litar) : Nat := m.field 9 8

/-- The TYPE is one of the seven that R296 defines. -/
def Litar.defined (m : Litar) : Bool := decide (1 ≤ m.type ∧ m.type ≤ 7)

/-- The reserved bytes of the header are zero (R296). -/
def Litar.clean (m : Litar) : Bool := m.field 15 10 == 0

/-- Whom a reply to a message goes to (R296). -/
def Litar.asker (m : Litar) : ReplyTo := ⟨m.port, m.type, m.part, m.seq⟩

/-- The TYPE that a body belongs to (R296). -/
def LitarBody.type (b : LitarBody) : Option Nat :=
  match b with
  | .boot .. => some 1
  | .launch .. => some 2
  | .map .. => some 3
  | .copyIn .. | .copyOut .. => some 4
  | .query => some 5
  | .quote _ => some 6
  | .power .. => some 7
  | .unknown => none

/-- The body is what its TYPE says. -/
def Litar.typed (m : Litar) : Bool := m.body.type == some m.type

/-- The message of an index, when it may be performed: its port is live, and no earlier request of its port and partition waits
(R296). The ROM takes BOOT messages, and the control protocol every other one. -/
def State.litarAt (s : State) (k : Nat) : Option Litar :=
  match s.inputs[k]? with
  | some (.litar m) =>
    let first := s.inputs.all (fun i => match i with
      | .litar x => !(x.port == m.port && x.part == m.part && decide (x.seq < m.seq) && (x.type == 1) == (m.type == 1))
      | _ => true)
    if first ∧ !s.deadPorts.contains m.port then some m else none
  | _ => none

/-- A Litar message waits at its port while its partition is halted (R339). -/
def State.holdsFrame (s : State) (m : Litar) : Bool := (s.partition m.part).halted

/-- A message of the control protocol: the ports are open, its partition is not halted, and its header is right
(R294, R296, R339). -/
def State.request (s : State) (k : Nat) : Option Litar :=
  if s.boot = .running then (s.litarAt k).filter (fun m => !s.holdsFrame m && m.clean && m.typed) else none

/-- The bytes of the Litar messages that a port holds for halted partitions. -/
def State.portBytes (s : State) (port : Nat) : Nat :=
  (s.inputs.map (fun i => match i with | .litar m => if m.port = port ∧ s.holdsFrame m then 16 + m.length else 0 | _ => 0)).foldl (· + ·) 0

/-- A port pauses priority 3 of its peer: the halted partitions' frames that it holds fill 1 MiB (R339). -/
def State.pausing (s : State) (port : Nat) : Bool := decide (2 ^ 20 ≤ s.portBytes port)

/-- An access from outside to ranges of keys: its channels wake, what is held there goes first, and the open regions there apply
(R239, R300). -/
def outsideAccess (s : State) (ranges : List (Nat × Nat)) (k : State → Out) : Out :=
  if !s.readTurn ranges then .fault .noSuchEvent
  else k ((ranges.foldl (fun s r => s.touchRange r.1 r.2) s).applyNow ranges)

/-- Writes bytes from a key at their homes. -/
def State.writeList (s : State) (key : Nat) (l : List Byte) : State := s.writeBytes key l.length (bytesNat l) (bytesMask l.length)

/-- A number as n little-endian bytes. -/
def natBytes (x n : Nat) : List Byte := (unpackCodes 8 x n).map (BitVec.ofNat 8)

/-! ## Tiles (R292, R293) -/

/-- The tile of a die, a cluster and a physical position. -/
def tileOf (die cluster pos : Nat) : Nat :=
  die * 1024 + (4 * (cluster / 8) + pos / 4) * 32 + 4 * (cluster % 8) + pos % 4

/-- The physical positions of a cluster whose cores are live, ascending. -/
def State.livePositions (s : State) (cl : Nat) : List Nat := (List.range 16).filter (fun p => !s.fused.contains (cl * 16 + p))

/-- The firmware's table: the absent cores, positions n to 15 of each cluster (R293). -/
def State.absentCores (s : State) : List Nat :=
  (List.range 128).flatMap (fun cl => ((List.range 16).drop (s.livePositions cl).length).map (fun p => cl * 16 + p))

/-- The tile of a core. -/
def State.tileOfCore (s : State) (core : Nat) : Nat :=
  tileOf (dieOf core) (clusterOf core % 64) ((s.livePositions (clusterOf core))[posOf core]?.getD 0)

/-! ## The capability list (R298) -/

/-- A record: its identifier, version and content; NEXT is filled in when the list is laid out. -/
structure CapRecord where
  id : Nat
  content : List Byte
deriving DecidableEq, Repr

/-- The set of the numbers below n that are not in a list, as a mask of n bits. -/
def liveMask (n : Nat) (dead : List Nat) : Nat := ((List.range n).map (fun i => if dead.contains i then 0 else 2 ^ i)).foldl (· + ·) 0

/-- The record of a die. -/
def State.dieRecord (s : State) (d : Nat) : CapRecord :=
  let masks := (List.range 64).map (fun cl => liveMask 16 ((List.range 16).filter (fun p => !s.present (d * 1024 + cl * 16 + p))))
  let live := ((List.range 1024).filter (fun c => s.present (d * 1024 + c))).length
  ⟨2, natBytes d 4 ++ natBytes live 4 ++ masks.flatMap (fun m => natBytes m 2)⟩

/-- The records of this part: cores and arrays run at 2.7 GHz, and base dies at 1.6 GHz (R1, R298). -/
def State.capContents (s : State) : List CapRecord :=
  [⟨1, natBytes 2700000 4 ++ natBytes 2700000 4 ++ natBytes 1600000 4⟩, s.dieRecord 0, s.dieRecord 1, ⟨3, natBytes (liveMask 256 s.deadChannels) 32⟩,
    ⟨4, natBytes (liveMask 32 s.deadLinks) 4⟩, ⟨5, natBytes (liveMask 2 s.deadPorts) 4⟩,
    ⟨6, natBytes s.version 4 ++ s.digest⟩, ⟨7, natBytes Config.identityKey 57⟩]

/-- Lays out records one after another, each from a multiple of eight bytes (R298). -/
def layOut (ver : Nat) (at_ : Nat) : List CapRecord → List Byte
  | [] => []
  | r :: rest =>
    let len := 8 + r.content.length
    let size := roundUp len 8
    let next := if rest.isEmpty then 0 else at_ + size
    natBytes r.id 2 ++ natBytes ver 1 ++ natBytes 0 1 ++ natBytes len 2 ++ natBytes next 2 ++ r.content ++ natBytes 0 (size - len) ++
      layOut ver (at_ + size) rest

/-! ## Boot (R294, R295) -/

/-- Power-on reset: the state after reset, with the part, its division (log 72), its fuses and what the outside still has to say
(R294). -/
def execPowerOnReset (s : State) : Out :=
  if !s.inputs.contains .reset then .fault .noSuchEvent
  else .next { State.reset with
    inputs := s.inputs.erase .reset, fuses := s.fuses, minVersion := s.minVersion, fused := s.fused,
    partitionOf := s.partitionOf, deadChannels := s.deadChannels, deadLinks := s.deadLinks, deadPorts := s.deadPorts,
    linked0 := !s.deadPorts.contains 0, bufCap := s.bufCap, sched := s.sched,
    turn := s.turn, freeCtr := s.freeCtr }

/-- Port 0 has no link within 2^32 core cycles of reset: boot uses port 1 (R294). -/
def execBootPortTimeout (s : State) : Out :=
  if s.boot = .waiting ∧ s.bootPort = 0 ∧ !s.linked0 ∧ 2 ^ 32 ≤ (s.core 0).clock then .next { s with bootPort := 1 }
  else .fault .noSuchEvent

/-- The message that an image's signature covers: the SHAKE256 digest of its first 64 bytes and its body (R295). -/
def imageDigest (l : List Byte) : List Byte := Config.shake256 (l.take 64 ++ l.drop 256) 64

/-- A firmware image is accepted (R295). -/
def State.imageOk (s : State) (l : List Byte) : Bool :=
  let pub := (l.drop 178).take 57
  let key := fieldOf l 16 16
  let len := fieldOf l 15 8
  decide (256 ≤ l.length) && fieldOf l 3 0 == 0x4C495421 && decide (s.minVersion ≤ fieldOf l 7 4) &&
  decide (1 ≤ len ∧ len ≤ 2 ^ 28 ∧ l.length = 256 + len) && decide (key ≤ 3) && fieldOf l 63 17 == 0 && fieldOf l 255 235 == 0 &&
  vget s.fuses key none == some (Config.shake256 pub 64) && Config.ed448Verify pub (imageDigest l) ((l.drop 64).take 114)

/-- A discovery packet starts or goes on toward a tile (R294). -/
def State.discover (s : State) (tile : Nat) (x y : Int) : State := s.addWork (s.engineItem 0 0 (.discovery tile x y))

/-- The parts of an image that have been received make it whole: its header, and as many bytes as LENGTH says, or a LENGTH beyond its
limit (R295). -/
def imageWhole (l : List Byte) : Bool := decide (256 ≤ l.length ∧ (2 ^ 28 < fieldOf l 15 8 ∨ 256 + fieldOf l 15 8 ≤ l.length))

/-- A BOOT message of a series: once the image is whole it is verified; an accepted one starts discovery, and another is answered with
status 1, and the ROM waits for the next (R294). -/
def execBoot (k : Nat) (s : State) : Out :=
  match s.litarAt k with
  | some m =>
    match m.body with
    | .boot part code data =>
      if s.boot ≠ .waiting ∨ m.port ≠ s.bootPort ∨ !m.clean ∨ !m.typed then .fault .noSuchEvent
      else
        let image := s.bootImage ++ part
        let s : State := { s.dropInput k with bootImage := image, bootCode := s.bootCode ++ code, bootData := s.bootData ++ data }
        if !imageWhole image then .next s
        else if !s.imageOk image then .next (({ s with bootImage := [], bootCode := [], bootData := [] } : State).reply m.asker 1 [])
        else
          let s : State := { s with boot := .discovering, version := fieldOf image 7 4, digest := imageDigest image, bootReply := m.asker,
                                    bootImage := [] }
          .next (s.discover 0 0 0)
    | _ => .fault .noSuchEvent
  | none => .fault .noSuchEvent

/-- The neighbours of a tile, with each hop's direction; die 0's corner also leads to die 1's (R292, R294). -/
def neighbours (tile : Nat) : List (Nat × Int × Int) :=
  let x := tile % 32
  let y := tile / 32 % 32
  (if x < 31 then [(tile + 1, 1, 0)] else []) ++ (if 0 < x then [(tile - 1, -1, 0)] else []) ++
    (if y < 31 then [(tile + 32, 0, 1)] else []) ++ (if 0 < y then [(tile - 32, 0, -1)] else [])

/-- A frame of the package, of the stack that a number names or of one after it. -/
def State.someFrame (s : State) (n : Nat) : Option (Nat × State) := (List.range 8).findSome? (fun i => s.drawFrame ((n + i) % 8))

/-- Boot step 6: cr.cap is written, the ports open, and the BOOT reply goes out with status 0 (R294, R298). The list's VERSION, its
address and its frame's stack are free values (log 6). -/
def State.finishBoot (s : State) : State :=
  let n := s.freeCtr
  let list := layOut (Config.freeNat n) 0 s.capContents
  let cap : BitVec 56 := BitVec.ofNat 56 (Config.freeNat (n + 1) % 2 ^ 43 * 4096)
  let s := match s.someFrame (Config.freeNat (n + 2)) with
    | some (frame, s) => { s.writeList frame list with capFrame := some frame }
    | none => s
  let s : State := { s with cap := cap, capRecords := list, boot := .running, freeCtr := n + 3 }
  s.reply s.bootReply 0 []

/-- Boot steps 4 and 5, once discovery has ended: the table of cores, the code, and the data images on their way (R294). -/
def State.deliverImages (s : State) : State :=
  let s : State := { s with boot := .delivering, absent := s.absentCores }
  let s := s.bootCode.foldl (fun s c => s.writeList c.1 c.2) s
  let data := s.bootData.filter (fun d => s.present d.1)
  let s := data.foldl (fun s d => s.addWork (s.engineItem 0 0 (.image 0 d.1 d.2.1 d.2.2))) s
  if data.isEmpty then s.finishBoot else { s with awaiting := data.map (·.1) }

/-- A discovery packet reaches a tile: the first one gives its coordinate and is forwarded to every neighbour (R294). -/
def execDiscoveryPacket (k : Nat) (s : State) : Out :=
  match s.findWork k with
  | none => .fault .noSuchEvent
  | some w =>
    match w.body with
    | .discovery tile x y =>
      let s := s.dropWork k
      let s :=
        if s.coords.any (fun c => c.1 == tile) then s
        else
          let s : State := { s with coords := (tile, x, y) :: s.coords }
          let s := (neighbours tile).foldl (fun s n => s.discover n.1 (x + n.2.1) (y + n.2.2)) s
          if tile = 0 then s.discover 1024 0 0 else s
      let left := s.work.any (fun w => match w.body with | .discovery .. => true | _ => false)
      .next (if left then s else s.deliverImages)
    | _ => .fault .noSuchEvent

/-- The next tile toward a tile down the multicast tree: die 0's corner, along row 0, then down the column (R294). -/
def downward (tile dest : Nat) : Nat :=
  if tile / 1024 ≠ dest / 1024 then 1024
  else if tile % 32 < dest % 32 then tile + 1
  else tile + 32

/-- The tile above a tile in the tree. -/
def upward (tile : Nat) : Nat :=
  if tile = 1024 then 0 else if tile / 32 % 32 ≠ 0 then tile - 32 else tile - 1

/-- A data image reaches a tile: its core takes it and acknowledges, or it goes on down the tree (R294). -/
def execImageDelivery (k : Nat) (s : State) : Out :=
  match s.findWork k with
  | none => .fault .noSuchEvent
  | some w =>
    match w.body with
    | .image tile dest off data =>
      if tile = s.tileOfCore dest then
        .next ((s.writeList (scratchKey dest off) data).replaceWork { w with body := .imageAck tile dest })
      else .next (s.replaceWork { w with body := .image (downward tile (s.tileOfCore dest)) dest off data })
    | _ => .fault .noSuchEvent

/-- An acknowledgement goes up the tree; the root that holds every one ends the step (R294). -/
def execImageAcknowledgement (k : Nat) (s : State) : Out :=
  match s.findWork k with
  | none => .fault .noSuchEvent
  | some w =>
    match w.body with
    | .imageAck tile dest =>
      if tile ≠ 0 then .next (s.replaceWork { w with body := .imageAck (upward tile) dest })
      else
        let s : State := { (s.dropWork k) with awaiting := s.awaiting.erase dest }
        .next (if s.awaiting.isEmpty then s.finishBoot else s)
    | _ => .fault .noSuchEvent

/-! ## The control protocol (R296, R299) -/

/-- LAUNCH: the graph is launched as by `g.launch`, and the reply carries the result (R296, R313). -/
def execLaunch (k : Nat) (s : State) : Out :=
  match s.request k with
  | some m =>
    match m.body with
    | .launch die desc lo hi asid root priv =>
      followStep s none fun s =>
      let (v, s) := (s.dropInput k).launchGraph die ⟨m.part, die * 1024, asid, root, priv⟩ desc.toNat lo hi
      .next (s.reply m.asker 0 (natBytes v 8))
    | _ => .fault .noSuchEvent
  | none => .fault .noSuchEvent

/-- MAP: page tables and remote devices (R296, R297). -/
def execMap (k : Nat) (s : State) : Out :=
  match s.request k with
  | some m =>
    match m.body with
    | .map tables devices =>
      outsideAccess s (tables.map (fun t => (t.1, t.2.length))) fun s =>
        let s := tables.foldl (fun s t => s.writeList t.1 t.2) (s.dropInput k)
        let s : State := { s with devices := devices.foldl (fun l d => sset l d.1 d.2) s.devices }
        .next (s.reply m.asker 0 [])
    | _ => .fault .noSuchEvent
  | none => .fault .noSuchEvent

/-- COPY between the host and the device (R296). -/
def execCopy (k : Nat) (s : State) : Out :=
  match s.request k with
  | some m =>
    match m.body with
    | .copyIn key data =>
      outsideAccess s [(key, data.length)] fun s => .next (((s.dropInput k).writeList key data).reply m.asker 0 [])
    | .copyOut key n =>
      outsideAccess s [(key, n)] fun s => .next ((s.dropInput k).reply m.asker 0 (natBytes (s.readNat key n) n))
    | _ => .fault .noSuchEvent
  | none => .fault .noSuchEvent

/-- QUERY: the capability records (R296, R298). -/
def execQuery (k : Nat) (s : State) : Out :=
  match s.request k with
  | some m =>
    match m.body with
    | .query => .next ((s.dropInput k).reply m.asker 0 s.capRecords)
    | _ => .fault .noSuchEvent
  | none => .fault .noSuchEvent

/-- QUOTE: a signature over the digest of the nonce, the firmware digest and the capability list (R299). -/
def execQuote (k : Nat) (s : State) : Out :=
  match s.request k with
  | some m =>
    match m.body with
    | .quote nonce =>
      .next ((s.dropInput k).reply m.asker 0 (Config.ed448Sign (Config.shake256 (nonce.toList ++ s.digest ++ s.capRecords) 64)))
    | _ => .fault .noSuchEvent
  | none => .fault .noSuchEvent

/-- A message of an undefined TYPE, or with a reserved byte set, is answered with status 2 (R296). One whose body is not what its TYPE
says has no rule: the status of its reply is a free value (log 14). -/
def execUndefinedLitarMessage (k : Nat) (s : State) : Out :=
  match s.litarAt k with
  | some m =>
    if s.holdsFrame m then .fault .noSuchEvent
    else if !m.clean ∨ !m.defined then .next ((s.dropInput k).reply m.asker 2 [])
    else if !m.typed then let (v, s) := (s.dropInput k).draw; .next (s.reply m.asker (v % 256) [])
    else .fault .noSuchEvent
  | none => .fault .noSuchEvent

/-- A frame of another EtherType is dropped at the MAC (R296). -/
def execNonLitarFrame (k : Nat) (s : State) : Out :=
  match s.inputs[k]? with
  | some (.foreign _) => .next (s.dropInput k)
  | _ => .fault .noSuchEvent

/-- Priority flow control pauses or resumes priority 3 of a host port: what waited for it goes out on a resume (R296). -/
def execPriorityFlowControl (k : Nat) (s : State) : Out :=
  match s.inputs[k]? with
  | some (.pfc port pause) =>
    let others := s.paused.filter (· != port)
    let s := s.dropInput k
    if pause then .next { s with paused := port :: others }
    else
      let (now, later) := s.outbox.partition (fun r => r.asker.port == port)
      .next { s with paused := others, outbox := later, replies := s.replies ++ now }
  | _ => .fault .noSuchEvent

/-! ## Links (R297) -/

/-- A flit arrives on a Scedy link: each is delivered once and in order (R297). While a partition is halted the links hold what arrives
(R339, log 72). -/
def execScedyFlit (k : Nat) (s : State) : Out :=
  match s.inputs[k]? with
  | some (.scedy link seq write) =>
    let n := sget s.flits link 0
    if s.partitions.any (·.2.halted) ∨ n < seq ∨ s.deadLinks.contains link then .fault .noSuchEvent
    else if seq < n then .next (s.dropInput k)
    else
      let count (s : State) : State := { s.dropInput k with flits := sset s.flits link (n + 1) }
      match write with
      | none => .next (count s)
      | some (key, data) => outsideAccess s [(key, data.length)] fun s => .next ((count s).writeList key data)
  | _ => .fault .noSuchEvent

/-- A link or a host port goes down (R297). -/
def execLinkLoss (k : Nat) (s : State) : Out :=
  match s.inputs[k]? with
  | some (.linkDown port num) =>
    let s := s.dropInput k
    .next (if port then { s with deadPorts := insertNat num s.deadPorts } else { s with deadLinks := insertNat num s.deadLinks })
  | _ => .fault .noSuchEvent

/-! ## Power (R300) -/

/-- POWER: a channel goes to ACTIVE at once, or begins to enter a lower state (R300). A channel that is not live has no state
to enter: the status of that reply is a free value. -/
def execPower (k : Nat) (s : State) : Out :=
  match s.request k with
  | some m =>
    match m.body with
    | .power chan target =>
      let s := s.dropInput k
      if 256 ≤ chan ∨ s.deadChannels.contains chan then let (v, s) := s.draw; .next (s.reply m.asker (v % 256) [])
      else if target = .active then .next ((s.touchChannel chan).reply m.asker 0 [])
      else .next { s with entering := s.entering ++ [⟨chan, target, m.asker, false⟩] }
    | _ => .fault .noSuchEvent
  | none => .fault .noSuchEvent

/-- Every open region applies at a channel, as for a trigger (R239, R300). -/
def State.applyChannel (s : State) (chan : Nat) : State :=
  s.regions.foldl (fun s r =>
    match r.share chan with
    | some x => if x.state = .opened ∧ x.pending then s.startApply r x .applying [] false else s
    | none => s) s

/-- A channel's entry to a lower state: its open regions apply, its leases run out, and it enters (R300). -/
def execChannelPowerEntry (chan : Nat) (s : State) : Out :=
  match s.entering.find? (fun e => e.chan == chan) with
  | none => .fault .noSuchEvent
  | some e =>
    if !e.applied then
      let s := s.applyChannel chan
      .next { s with entering := s.entering.map (fun x => if x = e then { e with applied := true } else x) }
    else if s.regions.any (fun r => r.shares.any (fun x => x.chan == chan && (x.state == .applying || x.state == .closing))) ||
        s.phraseLeases.any (fun l => l.chan == chan && l.holdsUnit) then .fault .noSuchEvent
    else
      let s : State := { s with power := (chan, e.target) :: s.power.filter (fun p => p.1 != chan), entering := s.entering.erase e }
      .next (s.reply e.request 0 [])

/-- What is held at a channel in a low state wakes it (R300). -/
def execChannelWake (chan : Nat) (s : State) : Out :=
  if !s.channelAwake chan && (s.work.any (fun w => channelHomed w.home == some chan) || s.phraseReqs.any (fun r => r.chan == chan))
  then .next (s.touchChannel chan)
  else .fault .noSuchEvent

end Sys2Proof.Machine
end

