-- ==== Sys2Proof/Machine/Events.lean ====
section
/-! DEFINITION. What arrives at a home and is performed there, and the rotation boundary (10 R133, R135, 18 R246). -/

set_option Elab.async false

namespace Sys2Proof.Machine

open Sys2Proof

/-- An access or message arrives at its home and is performed (R246). -/
def execHomeAccess (k : Nat) (s : State) : Out :=
  s.begin k fun w s =>
    match w.body with
    | .load .. => performLoad s w
    | .store acc data mask => performStore s w acc data mask
    | .amo op acc dst x e => performAmo s w op acc dst x e
    | .bar op acc arg => if w.arrived.isSome then .fault .noSuchEvent else atHome s w acc fun s => .next (s.performBarrier w op acc arg)
    | .fut op acc _ arg rec => performFut s w op acc arg rec
    | .resolve acc value asid root =>
      atHome s w acc fun s => followStep s w.heldSince fun s =>
        let live := s.arrives w.core w.home acc.key
        let (x, s) := s.readLive w.core acc.key 16 live
        .next ((s.resolve w.core w.slot asid root acc.key x 2 value live).2.dropWork k)
    | .monArm num key _ => performArm s w num key
    | .upQuery sid chan sel group acc dst => .next (s.performQuery w sid chan sel group acc dst)
    | .tlRd kind id dst => .next (performTlRd s w kind id dst)
    | .done g => .next (performDone s w g)
    | .notify g n x dst => .next (performNotify s w g n x dst)
    | .lex v cmd => .next (performLex s w v cmd)
    | _ => .fault .noSuchEvent

/-- The rotation counter of a core has come back to 0: LOCK takes effect, and launched and resumed threads begin to compete
(R130, R133, R135). -/
def execRotationBoundary (core : Nat) (s : State) : Out :=
  let c := s.core core
  if !c.boundary then .fault .noSuchEvent
  else
    let join (t : Thread) : Thread := if t.slot = .ready ∨ t.slot = .parked then { t with competes := true } else t
    .next (s.setCore core { c with boundary := false, lockstep := c.lock, threads := c.threads.map join })

end Sys2Proof.Machine
end

