-- ==== Sys2Proof/Machine/Dispatch.lean ====
section
/-! DEFINITION. What each step does: one arm for each row of the opcode table, each a call of that row's meaning. -/

namespace Sys2Proof.Machine

open Sys2Proof

/-- Runs one instruction or event. -/
def exec (i : Instr) (s : State) : Host.Outcome State Fault Refusal :=
  match i with
  | .add d a b => Sys2Proof.Machine.execAdd d a b s
  | .sub d a b => Sys2Proof.Machine.execSub d a b s
  | .and d a b => Sys2Proof.Machine.execAnd d a b s
  | .or d a b => Sys2Proof.Machine.execOr d a b s
  | .xor d a b => Sys2Proof.Machine.execXor d a b s
  | .andn d a b => Sys2Proof.Machine.execAndn d a b s
  | .shl d a b => Sys2Proof.Machine.execShl d a b s
  | .shr d a b => Sys2Proof.Machine.execShr d a b s
  | .sra d a b => Sys2Proof.Machine.execSra d a b s
  | .rol d a b => Sys2Proof.Machine.execRol d a b s
  | .min d a b => Sys2Proof.Machine.execMin d a b s
  | .max d a b => Sys2Proof.Machine.execMax d a b s
  | .minu d a b => Sys2Proof.Machine.execMinu d a b s
  | .maxu d a b => Sys2Proof.Machine.execMaxu d a b s
  | .mul d a b => Sys2Proof.Machine.execMul d a b s
  | .mulh d a b => Sys2Proof.Machine.execMulh d a b s
  | .mulhu d a b => Sys2Proof.Machine.execMulhu d a b s
  | .div d a b => Sys2Proof.Machine.execDiv d a b s
  | .divu d a b => Sys2Proof.Machine.execDivu d a b s
  | .rem d a b => Sys2Proof.Machine.execRem d a b s
  | .remu d a b => Sys2Proof.Machine.execRemu d a b s
  | .clz d a => Sys2Proof.Machine.execClz d a s
  | .ctz d a => Sys2Proof.Machine.execCtz d a s
  | .popc d a => Sys2Proof.Machine.execPopc d a s
  | .sextB d a => Sys2Proof.Machine.execSextB d a s
  | .sextH d a => Sys2Proof.Machine.execSextH d a s
  | .sextW d a => Sys2Proof.Machine.execSextW d a s
  | .zextB d a => Sys2Proof.Machine.execZextB d a s
  | .zextH d a => Sys2Proof.Machine.execZextH d a s
  | .zextW d a => Sys2Proof.Machine.execZextW d a s
  | .cmpEq d a b => Sys2Proof.Machine.execCmpEq d a b s
  | .cmpNe d a b => Sys2Proof.Machine.execCmpNe d a b s
  | .cmpLt d a b => Sys2Proof.Machine.execCmpLt d a b s
  | .cmpGe d a b => Sys2Proof.Machine.execCmpGe d a b s
  | .cmpLtu d a b => Sys2Proof.Machine.execCmpLtu d a b s
  | .cmpGeu d a b => Sys2Proof.Machine.execCmpGeu d a b s
  | .sel d a b c => Sys2Proof.Machine.execSel d a b c s
  | .addi d a imm => Sys2Proof.Machine.execAddi d a imm s
  | .andi d a imm => Sys2Proof.Machine.execAndi d a imm s
  | .ori d a imm => Sys2Proof.Machine.execOri d a imm s
  | .xori d a imm => Sys2Proof.Machine.execXori d a imm s
  | .movi d hw imm => Sys2Proof.Machine.execMovi d hw imm s
  | .movk d hw imm => Sys2Proof.Machine.execMovk d hw imm s
  | .fadd d a b => Sys2Proof.Machine.execFadd d a b s
  | .fsub d a b => Sys2Proof.Machine.execFsub d a b s
  | .fmul d a b => Sys2Proof.Machine.execFmul d a b s
  | .fmin d a b => Sys2Proof.Machine.execFmin d a b s
  | .fmax d a b => Sys2Proof.Machine.execFmax d a b s
  | .fdiv d a b => Sys2Proof.Machine.execFdiv d a b s
  | .fsqrt d a => Sys2Proof.Machine.execFsqrt d a s
  | .fclass d a => Sys2Proof.Machine.execFclass d a s
  | .fcmpEq d a b => Sys2Proof.Machine.execFcmpEq d a b s
  | .fcmpLt d a b => Sys2Proof.Machine.execFcmpLt d a b s
  | .fcmpLe d a b => Sys2Proof.Machine.execFcmpLe d a b s
  | .fcmpUn d a b => Sys2Proof.Machine.execFcmpUn d a b s
  | .fsgnJ d a b => Sys2Proof.Machine.execFsgnJ d a b s
  | .fsgnN d a b => Sys2Proof.Machine.execFsgnN d a b s
  | .fsgnX d a b => Sys2Proof.Machine.execFsgnX d a b s
  | .fcvtFI d a => Sys2Proof.Machine.execFcvtFI d a s
  | .fcvtFIu d a => Sys2Proof.Machine.execFcvtFIu d a s
  | .fcvtIF d a => Sys2Proof.Machine.execFcvtIF d a s
  | .fcvtIuF d a => Sys2Proof.Machine.execFcvtIuF d a s
  | .ffma d a b c => Sys2Proof.Machine.execFfma d a b c s
  | .vadd d a b m => Sys2Proof.Machine.execVadd d a b m s
  | .vsub d a b m => Sys2Proof.Machine.execVsub d a b m s
  | .vmul d a b m => Sys2Proof.Machine.execVmul d a b m s
  | .vmin d a b m => Sys2Proof.Machine.execVmin d a b m s
  | .vmax d a b m => Sys2Proof.Machine.execVmax d a b m s
  | .vdiv d a b m => Sys2Proof.Machine.execVdiv d a b m s
  | .vsqrt d a m => Sys2Proof.Machine.execVsqrt d a m s
  | .vabs d a m => Sys2Proof.Machine.execVabs d a m s
  | .vexp2 d a m => Sys2Proof.Machine.execVexp2 d a m s
  | .vlog2 d a m => Sys2Proof.Machine.execVlog2 d a m s
  | .vrcp d a m => Sys2Proof.Machine.execVrcp d a m s
  | .vrsq d a m => Sys2Proof.Machine.execVrsq d a m s
  | .vneg d a m => Sys2Proof.Machine.execVneg d a m s
  | .vfma d a b c => Sys2Proof.Machine.execVfma d a b c s
  | .vfnma d a b c => Sys2Proof.Machine.execVfnma d a b c s
  | .vaddI d a b m => Sys2Proof.Machine.execVaddI d a b m s
  | .vsubI d a b m => Sys2Proof.Machine.execVsubI d a b m s
  | .vmulI d a b m => Sys2Proof.Machine.execVmulI d a b m s
  | .vand d a b m => Sys2Proof.Machine.execVand d a b m s
  | .vor d a b m => Sys2Proof.Machine.execVor d a b m s
  | .vxor d a b m => Sys2Proof.Machine.execVxor d a b m s
  | .vshl d a b m => Sys2Proof.Machine.execVshl d a b m s
  | .vshr d a b m => Sys2Proof.Machine.execVshr d a b m s
  | .vsra d a b m => Sys2Proof.Machine.execVsra d a b m s
  | .vminI d a b m => Sys2Proof.Machine.execVminI d a b m s
  | .vmaxI d a b m => Sys2Proof.Machine.execVmaxI d a b m s
  | .vminu d a b m => Sys2Proof.Machine.execVminu d a b m s
  | .vmaxu d a b m => Sys2Proof.Machine.execVmaxu d a b m s
  | .vandn d a b m => Sys2Proof.Machine.execVandn d a b m s
  | .vcmpEq d a b m => Sys2Proof.Machine.execVcmpEq d a b m s
  | .vcmpLt d a b m => Sys2Proof.Machine.execVcmpLt d a b m s
  | .vcmpLe d a b m => Sys2Proof.Machine.execVcmpLe d a b m s
  | .vcmpUn d a b m => Sys2Proof.Machine.execVcmpUn d a b m s
  | .vcmpEqI d a b m => Sys2Proof.Machine.execVcmpEqI d a b m s
  | .vcmpLtI d a b m => Sys2Proof.Machine.execVcmpLtI d a b m s
  | .vcmpLtu d a b m => Sys2Proof.Machine.execVcmpLtu d a b m s
  | .vsel d a b c => Sys2Proof.Machine.execVsel d a b c s
  | .vcvtUp d a f m => Sys2Proof.Machine.execVcvtUp d a f m s
  | .vcvtDn d a f m => Sys2Proof.Machine.execVcvtDn d a f m s
  | .vcvtDnSat d a f m => Sys2Proof.Machine.execVcvtDnSat d a f m s
  | .vcvtDnSr d a f m => Sys2Proof.Machine.execVcvtDnSr d a f m s
  | .vcvtDnSrSat d a f m => Sys2Proof.Machine.execVcvtDnSrSat d a f m s
  | .vcvtDnRtz d a f m => Sys2Proof.Machine.execVcvtDnRtz d a f m s
  | .vperm d a b m => Sys2Proof.Machine.execVperm d a b m s
  | .vbcast d a m => Sys2Proof.Machine.execVbcast d a m s
  | .vins d a n m => Sys2Proof.Machine.execVins d a n m s
  | .vext d a n => Sys2Proof.Machine.execVext d a n s
  | .vredAdd d a m => Sys2Proof.Machine.execVredAdd d a m s
  | .vredMax d a m => Sys2Proof.Machine.execVredMax d a m s
  | .vredMin d a m => Sys2Proof.Machine.execVredMin d a m s
  | .mand d a b => Sys2Proof.Machine.execMand d a b s
  | .mor d a b => Sys2Proof.Machine.execMor d a b s
  | .mnot d a => Sys2Proof.Machine.execMnot d a s
  | .mpopc d a => Sys2Proof.Machine.execMpopc d a s
  | .vaddBf d a b m => Sys2Proof.Machine.execVaddBf d a b m s
  | .vmulBf d a b m => Sys2Proof.Machine.execVmulBf d a b m s
  | .vaddHf d a b m => Sys2Proof.Machine.execVaddHf d a b m s
  | .vmulHf d a b m => Sys2Proof.Machine.execVmulHf d a b m s
  | .vaddI16 d a b m => Sys2Proof.Machine.execVaddI16 d a b m s
  | .vsubI16 d a b m => Sys2Proof.Machine.execVsubI16 d a b m s
  | .vaddI8 d a b m => Sys2Proof.Machine.execVaddI8 d a b m s
  | .vsubI8 d a b m => Sys2Proof.Machine.execVsubI8 d a b m s
  | .j off => Sys2Proof.Machine.execJ off s
  | .jl off => Sys2Proof.Machine.execJl off s
  | .jlL off => Sys2Proof.Machine.execJlL off s
  | .bEq a b off => Sys2Proof.Machine.execBEq a b off s
  | .bNe a b off => Sys2Proof.Machine.execBNe a b off s
  | .bLt a b off => Sys2Proof.Machine.execBLt a b off s
  | .bGe a b off => Sys2Proof.Machine.execBGe a b off s
  | .bLtu a b off => Sys2Proof.Machine.execBLtu a b off s
  | .bGeu a b off => Sys2Proof.Machine.execBGeu a b off s
  | .bBset a bit off => Sys2Proof.Machine.execBBset a bit off s
  | .bBclr a bit off => Sys2Proof.Machine.execBBclr a bit off s
  | .jr a => Sys2Proof.Machine.execJr a s
  | .jrA a => Sys2Proof.Machine.execJrA a s
  | .jlr a => Sys2Proof.Machine.execJlr a s
  | .jlrA a => Sys2Proof.Machine.execJlrA a s
  | .ldB t base off => Sys2Proof.Machine.execLdB t base off s
  | .ldH t base off => Sys2Proof.Machine.execLdH t base off s
  | .ldW t base off => Sys2Proof.Machine.execLdW t base off s
  | .ldD t base off => Sys2Proof.Machine.execLdD t base off s
  | .ldBu t base off => Sys2Proof.Machine.execLdBu t base off s
  | .ldHu t base off => Sys2Proof.Machine.execLdHu t base off s
  | .ldWu t base off => Sys2Proof.Machine.execLdWu t base off s
  | .stB t base off => Sys2Proof.Machine.execStB t base off s
  | .stH t base off => Sys2Proof.Machine.execStH t base off s
  | .stW t base off => Sys2Proof.Machine.execStW t base off s
  | .stD t base off => Sys2Proof.Machine.execStD t base off s
  | .ldFe t base off => Sys2Proof.Machine.execLdFe t base off s
  | .ldFf t base off => Sys2Proof.Machine.execLdFf t base off s
  | .stEf t base off => Sys2Proof.Machine.execStEf t base off s
  | .stF t base off => Sys2Proof.Machine.execStF t base off s
  | .ldw t base off => Sys2Proof.Machine.execLdw t base off s
  | .pf lvl base off => Sys2Proof.Machine.execPf lvl base off s
  | .ipf lvl base off => Sys2Proof.Machine.execIpf lvl base off s
  | .vld t base off => Sys2Proof.Machine.execVld t base off s
  | .vst t base off => Sys2Proof.Machine.execVst t base off s
  | .vldw t base off => Sys2Proof.Machine.execVldw t base off s
  | .vstw t base off => Sys2Proof.Machine.execVstw t base off s
  | .vgat a b c m => Sys2Proof.Machine.execVgat a b c m s
  | .vsct a b c m => Sys2Proof.Machine.execVsct a b c m s
  | .fenceCore => Sys2Proof.Machine.execFenceCore s
  | .fenceCl => Sys2Proof.Machine.execFenceCl s
  | .fenceDie => Sys2Proof.Machine.execFenceDie s
  | .fenceSys => Sys2Proof.Machine.execFenceSys s
  | .tlbInv a b c => Sys2Proof.Machine.execTlbInv a b c s
  | .tlbSync => Sys2Proof.Machine.execTlbSync s
  | .dcWb a b => Sys2Proof.Machine.execDcWb a b s
  | .dcInv a b => Sys2Proof.Machine.execDcInv a b s
  | .dcWbinv a b => Sys2Proof.Machine.execDcWbinv a b s
  | .icInv a b => Sys2Proof.Machine.execIcInv a b s
  | .tNew a b => Sys2Proof.Machine.execTNew a b s
  | .tFree a => Sys2Proof.Machine.execTFree a s
  | .tLd a b => Sys2Proof.Machine.execTLd a b s
  | .tSt a b => Sys2Proof.Machine.execTSt a b s
  | .tGat a b c => Sys2Proof.Machine.execTGat a b c s
  | .tPhr a b c => Sys2Proof.Machine.execTPhr a b c s
  | .tQ a b which => Sys2Proof.Machine.execTQ a b which s
  | .tWiden a b c => Sys2Proof.Machine.execTWiden a b c s
  | .mxLease => Sys2Proof.Machine.execMxLease s
  | .mxFree a => Sys2Proof.Machine.execMxFree a s
  | .mxCfg a => Sys2Proof.Machine.execMxCfg a s
  | .mxMma a b tile => Sys2Proof.Machine.execMxMma a b tile s
  | .mxSp a b tile => Sys2Proof.Machine.execMxSp a b tile s
  | .mxZero tile => Sys2Proof.Machine.execMxZero tile s
  | .mxLd a tile => Sys2Proof.Machine.execMxLd a tile s
  | .mxSt a tile => Sys2Proof.Machine.execMxSt a tile s
  | .bkAdd a b c => Sys2Proof.Machine.execBkAdd a b c s
  | .bkMul a b c => Sys2Proof.Machine.execBkMul a b c s
  | .bkFma a b c => Sys2Proof.Machine.execBkFma a b c s
  | .bkMax a b c => Sys2Proof.Machine.execBkMax a b c s
  | .bkMin a b c => Sys2Proof.Machine.execBkMin a b c s
  | .bkFill a b c => Sys2Proof.Machine.execBkFill a b c s
  | .bkCvt a b c => Sys2Proof.Machine.execBkCvt a b c s
  | .bkSum a b c => Sys2Proof.Machine.execBkSum a b c s
  | .bkOsm a b c => Sys2Proof.Machine.execBkOsm a b c s
  | .upOpen a b => Sys2Proof.Machine.execUpOpen a b s
  | .upEmit a b c => Sys2Proof.Machine.execUpEmit a b c s
  | .upEmitv a b c => Sys2Proof.Machine.execUpEmitv a b c s
  | .upFlush a b => Sys2Proof.Machine.execUpFlush a b s
  | .upClose a => Sys2Proof.Machine.execUpClose a s
  | .upSt a b which => Sys2Proof.Machine.execUpSt a b which s
  | .cp a ctx tag => Sys2Proof.Machine.execCp a ctx tag s
  | .cp2d a ctx tag => Sys2Proof.Machine.execCp2d a ctx tag s
  | .cpT a ctx tag => Sys2Proof.Machine.execCpT a ctx tag s
  | .tagWaitAll a => Sys2Proof.Machine.execTagWaitAll a s
  | .tagWaitAny a b => Sys2Proof.Machine.execTagWaitAny a b s
  | .tagFfr a b => Sys2Proof.Machine.execTagFfr a b s
  | .tlRd a b kind => Sys2Proof.Machine.execTlRd a b kind s
  | .tlWait a b kind => Sys2Proof.Machine.execTlWait a b kind s
  | .amoAdd w a b c => Sys2Proof.Machine.execAmoAdd w a b c s
  | .amoAnd w a b c => Sys2Proof.Machine.execAmoAnd w a b c s
  | .amoOr w a b c => Sys2Proof.Machine.execAmoOr w a b c s
  | .amoXor w a b c => Sys2Proof.Machine.execAmoXor w a b c s
  | .amoMin w a b c => Sys2Proof.Machine.execAmoMin w a b c s
  | .amoMax w a b c => Sys2Proof.Machine.execAmoMax w a b c s
  | .amoMinu w a b c => Sys2Proof.Machine.execAmoMinu w a b c s
  | .amoMaxu w a b c => Sys2Proof.Machine.execAmoMaxu w a b c s
  | .amoSwap w a b c => Sys2Proof.Machine.execAmoSwap w a b c s
  | .amoCas w a b c => Sys2Proof.Machine.execAmoCas w a b c s
  | .barInit a b => Sys2Proof.Machine.execBarInit a b s
  | .barArr a => Sys2Proof.Machine.execBarArr a s
  | .barExp a b => Sys2Proof.Machine.execBarExp a b s
  | .barWait a b => Sys2Proof.Machine.execBarWait a b s
  | .monArm a => Sys2Proof.Machine.execMonArm a s
  | .monWait a b => Sys2Proof.Machine.execMonWait a b s
  | .monClr a => Sys2Proof.Machine.execMonClr a s
  | .msgSend a b c => Sys2Proof.Machine.execMsgSend a b c s
  | .msgWait => Sys2Proof.Machine.execMsgWait s
  | .msgPop a b => Sys2Proof.Machine.execMsgPop a b s
  | .take a b => Sys2Proof.Machine.execTake a b s
  | .done => Sys2Proof.Machine.execDone s
  | .emit edge b c => Sys2Proof.Machine.execEmit edge b c s
  | .susp a b => Sys2Proof.Machine.execSusp a b s
  | .futInit a => Sys2Proof.Machine.execFutInit a s
  | .futReg a b c => Sys2Proof.Machine.execFutReg a b c s
  | .futRes a b => Sys2Proof.Machine.execFutRes a b s
  | .futResP a b => Sys2Proof.Machine.execFutResP a b s
  | .futRd a b => Sys2Proof.Machine.execFutRd a b s
  | .futRdS a b => Sys2Proof.Machine.execFutRdS a b s
  | .gNotify a b n => Sys2Proof.Machine.execGNotify a b n s
  | .gLaunch a b c => Sys2Proof.Machine.execGLaunch a b c s
  | .phLease a b c => Sys2Proof.Machine.execPhLease a b c s
  | .phRun a b c => Sys2Proof.Machine.execPhRun a b c s
  | .phFree a => Sys2Proof.Machine.execPhFree a s
  | .tkArm a b e => Sys2Proof.Machine.execTkArm a b e s
  | .tkBud a b k => Sys2Proof.Machine.execTkBud a b k s
  | .tkCmt a b c => Sys2Proof.Machine.execTkCmt a b c s
  | .tkDraft a b => Sys2Proof.Machine.execTkDraft a b s
  | .tkConf a b c => Sys2Proof.Machine.execTkConf a b c s
  | .tkNext a b => Sys2Proof.Machine.execTkNext a b s
  | .tkSt a b which => Sys2Proof.Machine.execTkSt a b which s
  | .trap n => Sys2Proof.Machine.execTrap n s
  | .eret => Sys2Proof.Machine.execEret s
  | .crRd a n => Sys2Proof.Machine.execCrRd a n s
  | .crWr a n => Sys2Proof.Machine.execCrWr a n s
  | .crSet a n => Sys2Proof.Machine.execCrSet a n s
  | .crClr a n => Sys2Proof.Machine.execCrClr a n s
  | .repart a b => Sys2Proof.Machine.execRepart a b s
  | .repartRcl a b => Sys2Proof.Machine.execRepartRcl a b s
  | .repartStop a b => Sys2Proof.Machine.execRepartStop a b s
  | .repartRun a b => Sys2Proof.Machine.execRepartRun a b s
  | .halt => Sys2Proof.Machine.execHalt s
  | .brk => Sys2Proof.Machine.execBrk s
  | .ctrRd a n => Sys2Proof.Machine.execCtrRd a n s
  | .ctrCfg a n => Sys2Proof.Machine.execCtrCfg a n s
  | .ctrClr a => Sys2Proof.Machine.execCtrClr a s
  | .causeRead d => Sys2Proof.Machine.execCauseRead d s
  | .loadReturn k => Sys2Proof.Machine.execLoadReturn k s
  | .fetchReturn k => Sys2Proof.Machine.execFetchReturn k s
  | .homeAccess k => Sys2Proof.Machine.execHomeAccess k s
  | .fullEmptyArrival k => Sys2Proof.Machine.execFullEmptyArrival k s
  | .writeBack k => Sys2Proof.Machine.execWriteBack k s
  | .eviction cluster sector => Sys2Proof.Machine.execEviction cluster sector s
  | .monitorTimeout core slot => Sys2Proof.Machine.execMonitorTimeout core slot s
  | .messageArrival k => Sys2Proof.Machine.execMessageArrival k s
  | .handleCommandArrival k => Sys2Proof.Machine.execHandleCommandArrival k s
  | .handleCommandCompletion k => Sys2Proof.Machine.execHandleCommandCompletion k s
  | .wideningConversion k => Sys2Proof.Machine.execWideningConversion k s
  | .leaseGrant cluster => Sys2Proof.Machine.execLeaseGrant cluster s
  | .leaseWatchdogExpiry cluster => Sys2Proof.Machine.execLeaseWatchdogExpiry cluster s
  | .arrayCommandCompletion k => Sys2Proof.Machine.execArrayCommandCompletion k s
  | .bankCommandPerformed k => Sys2Proof.Machine.execBankCommandPerformed k s
  | .pairArrival k => Sys2Proof.Machine.execPairArrival k s
  | .applicationEnd sid chan => Sys2Proof.Machine.execApplicationEnd sid chan s
  | .flushArrival k => Sys2Proof.Machine.execFlushArrival k s
  | .closeArrival k => Sys2Proof.Machine.execCloseArrival k s
  | .copyCompletion k => Sys2Proof.Machine.execCopyCompletion k s
  | .invalidationArrival k => Sys2Proof.Machine.execInvalidationArrival k s
  | .invalidationAcknowledgement k => Sys2Proof.Machine.execInvalidationAcknowledgement k s
  | .migrate k => Sys2Proof.Machine.execMigrate k s
  | .release k => Sys2Proof.Machine.execRelease k s
  | .migrationCompletion k => Sys2Proof.Machine.execMigrationCompletion k s
  | .launchCompletion k => Sys2Proof.Machine.execLaunchCompletion k s
  | .waveDrain die graph => Sys2Proof.Machine.execWaveDrain die graph s
  | .itemArrival k => Sys2Proof.Machine.execItemArrival k s
  | .stealRequest k => Sys2Proof.Machine.execStealRequest k s
  | .stealBackoffExpiry core => Sys2Proof.Machine.execStealBackoffExpiry core s
  | .probeTimeout core => Sys2Proof.Machine.execProbeTimeout core s
  | .probeToken k => Sys2Proof.Machine.execProbeToken k s
  | .emergencyEntryRequest k => Sys2Proof.Machine.execEmergencyEntryRequest k s
  | .sealArrival k => Sys2Proof.Machine.execSealArrival k s
  | .resumeNotice k => Sys2Proof.Machine.execResumeNotice k s
  | .phraseLeaseGrant chan => Sys2Proof.Machine.execPhraseLeaseGrant chan s
  | .phraseRunCompletion k => Sys2Proof.Machine.execPhraseRunCompletion k s
  | .lexrelWrite a => Sys2Proof.Machine.execLexrelWrite a s
  | .save k => Sys2Proof.Machine.execSave k s
  | .restore k => Sys2Proof.Machine.execRestore k s
  | .move k => Sys2Proof.Machine.execMove k s
  | .unfwd k => Sys2Proof.Machine.execUnfwd k s
  | .preemptionCompletion k => Sys2Proof.Machine.execPreemptionCompletion k s
  | .debugHalt k => Sys2Proof.Machine.execDebugHalt k s
  | .debugResume k => Sys2Proof.Machine.execDebugResume k s
  | .powerOnReset => Sys2Proof.Machine.execPowerOnReset s
  | .boot k => Sys2Proof.Machine.execBoot k s
  | .bootPortTimeout => Sys2Proof.Machine.execBootPortTimeout s
  | .discoveryPacket k => Sys2Proof.Machine.execDiscoveryPacket k s
  | .imageDelivery k => Sys2Proof.Machine.execImageDelivery k s
  | .imageAcknowledgement k => Sys2Proof.Machine.execImageAcknowledgement k s
  | .launch k => Sys2Proof.Machine.execLaunch k s
  | .map k => Sys2Proof.Machine.execMap k s
  | .copy k => Sys2Proof.Machine.execCopy k s
  | .query k => Sys2Proof.Machine.execQuery k s
  | .quote k => Sys2Proof.Machine.execQuote k s
  | .power k => Sys2Proof.Machine.execPower k s
  | .undefinedLitarMessage k => Sys2Proof.Machine.execUndefinedLitarMessage k s
  | .nonLitarFrame k => Sys2Proof.Machine.execNonLitarFrame k s
  | .priorityFlowControl k => Sys2Proof.Machine.execPriorityFlowControl k s
  | .scedyFlit k => Sys2Proof.Machine.execScedyFlit k s
  | .linkLoss k => Sys2Proof.Machine.execLinkLoss k s
  | .channelPowerEntry chan => Sys2Proof.Machine.execChannelPowerEntry chan s
  | .channelWake chan => Sys2Proof.Machine.execChannelWake chan s
  | .illegalInstruction => Sys2Proof.Machine.execIllegalInstruction s
  | .rotationBoundary core => Sys2Proof.Machine.execRotationBoundary core s
  | .stealReply k => Sys2Proof.Machine.execStealReply k s

end Sys2Proof.Machine
end

