-- ==== Sys2Proof/Machine/Issue.lean ====
section
/-! DEFINITION. Fetching, markers, pairs, and one thread's turn to issue (02 R18-R25, R36, 07 R105, 13 R197). -/

set_option Elab.async false

namespace Sys2Proof.Machine

open Sys2Proof

/-! ## Fetching (R105, R197) -/

/-- What a fetch of the acting thread gives. -/
inductive Fetched where
  /-- The word, and the one after it in its block. -/
  | word (x next : BitVec 32)
  | trap (cause : Nat)
  /-- The block is not held: a fetch is on its way, through a translation. -/
  | stall (block : Nat) (tr : Trans)
deriving DecidableEq, Repr

/-- A block as an instruction cache holds it. -/
def heldBlock (l : List (Nat × VWord)) (block : Nat) : Option VWord := (l.find? (fun x => x.1 == block)).map (·.2)

/-- The three instruction caches of the acting thread, nearest first, each with its number (R197). -/
def State.levels (s : State) : List (Nat × List (Nat × VWord)) :=
  let cl := clusterOf s.curCore
  let d := dieOf s.curCore
  [(s.curCore, s.me.icache), (0x1000 + cl, (s.cluster cl).icache), (0x2000 + d, (s.die d).icache)]

/-- A cache of the acting thread drops a block. -/
def State.dropBlock (s : State) (cache block : Nat) : State :=
  let less (l : List (Nat × VWord)) : List (Nat × VWord) := l.filter (fun x => x.1 != block)
  let cl := clusterOf s.curCore
  let d := dieOf s.curCore
  let s : State := { s with iparity := s.iparity.filter (· != (cache, block)) }
  if cache < 0x1000 then s.setMe { s.me with icache := less s.me.icache }
  else if cache < 0x2000 then s.setCluster cl { s.cluster cl with icache := less (s.cluster cl).icache }
  else s.setDie d { s.die d with icache := less (s.die d).icache }

/-- The block from the nearest of some levels, unless it has been evicted meanwhile; one with a parity error is dropped, counted,
and fetched from further away (R121). -/
def State.blockIn (s : State) (block : Nat) : List (Nat × List (Nat × VWord)) → Option VWord × State
  | [] => (none, s)
  | (cache, l) :: r =>
    match heldBlock l block with
    | none => s.blockIn block r
    | some b =>
      if s.iparity.contains (cache, block) then ((s.dropBlock cache block).countCorr s.curCore 1).blockIn block r
      else let (gone, s) := s.choose 2; (if gone = 0 then some b else none, s)

/-- The block from the nearest of the three levels. -/
def State.cachedBlock (s : State) (block : Nat) : Option VWord × State := s.blockIn block s.levels

/-- The word at an offset of a block, and the one after it. -/
def fetchedAt (b : VWord) (i : Nat) : Fetched := .word (b.extractLsb' (8 * i) 32) (b.extractLsb' (8 * (i + 4)) 32)

/-- Fetches the word at an address for the acting thread, and with it the next one, which may be the second of a pair: both come from one
block, through one translation (R105, R198). DESIGN CHOICE (log 112): fetches that follow one another in a block read the copy that the
first of them found, so that the thread runs it as the block was at one moment. -/
def State.fetch (s : State) (va : Word) : Fetched × State :=
  let t := s.thread
  if va.toNat / 2 ^ 56 ≠ 0 then (.trap 0x10, s)
  else
    match s.translate s.curCore t.asid.toNat t.pgroot.toNat (!(t.priv || t.hm)) true va.toNat { x := true } with
    | (.error _, s) => (.trap 0x10, s)
    | (.ok tr, s) =>
      let key := tr.keyOf va.toNat
      let block := key / 64 * 64
      match s.thread.line.filter (fun x => x.1 == block) with
      | some (_, b) => (fetchedAt b (key % 64), s)
      | none =>
        match s.cachedBlock block with
        | (some b, s) => (fetchedAt b (key % 64), s.setThread { s.thread with line := some (block, b) })
        | (none, s) => if s.reachable s.curCore key then (.stall block tr, s) else (.trap 0x17, s)

/-- Starts the fetch of a block through a translation, unless one of the thread is on its way. -/
def State.startFetch (s : State) (block : Nat) (tr : Trans) : State :=
  let going := s.work.any (fun w => w.of s.curCore s.curSlot && (match w.body with | .fetch b _ => b == block | _ => false))
  let s := if going then s else s.send (s.homeOf s.curCore block) [] false (.fetch block [tr])
  s.parkWith (.fetch block)

/-! ## One word (R24) -/

/-- A marked word parks while a long-latency result is outstanding, unless it has sent its request already (R24). -/
def State.mustWait (s : State) (w : Bool) : Bool := w && s.thread.pend == .none && s.outstanding s.curCore s.curSlot

/-- An instruction that parks once it has made its request takes the entries that it will push, together with its pops (R31). -/
def State.promise (before s : State) (us : List Use) : State :=
  if s.last = .parked ∧ s.thread.pend.engaged ∧ !before.thread.pend.engaged then s.reserve (pushesOf us) else s

/-- Issues a lone instruction. -/
def issueOne (w : Bool) (i : Instr) (s : State) : Out :=
  if s.mustWait w then .next s.park
  else
    match exec i s with
    | .next s' => .next (s.promise s' i.uses)
    | o => o

/-! ## Pairs (R22, R36) -/

/-- The registers that an instruction writes, queues apart. -/
def Instr.targets (i : Instr) : List (Pos × Opd) :=
  (i.uses.filter (fun u => u.role != .src && !u.code.isQueue)).map (fun u => (u.pos, u.code))

/-- The register that a destination names. -/
def Dst.target (d : Dst) : Option (Pos × Opd) :=
  match d with
  | .s r => some (.scalar, BitVec.ofNat 6 r)
  | .v r _ => some (.vector, BitVec.ofNat 6 r)
  | .m r => some (.mask, BitVec.ofNat 6 r)
  | _ => Option.none

/-- The C-class word's results for registers that the A-class word writes are discarded when they return (R22). -/
def State.yieldTo (before s : State) (a : Instr) : State :=
  let clear (d : Dst) : Dst := if d.target.any (fun t => (Instr.targets a).contains t) then .dropped else d
  { s with work := s.work.map (fun w =>
      if w.of s.curCore s.curSlot && before.findWork w.id != some w then w.mapDst clear else w) }

/-- A number field of a control-register or counter instruction names none: 0x01 by its code alone (R36, R123, R342). -/
def Instr.badNumber (i : Instr) : Bool :=
  match i with
  | .crRd _ n | .crWr _ n | .crSet _ n | .crClr _ n => !crAssigned n.toNat
  | .ctrRd _ n => decide (11 < n.toNat)
  | .ctrCfg _ n => decide (n.toNat < 8 ∨ 11 < n.toNat)
  | _ => false

/-- The C-class word's trap comes before the registers of either word beyond the mode (R36). -/
def Instr.trapsFirst (c : Instr) (cause : Nat) : Bool := cause == 0x03 || cause == 0x04 || (cause == 0x01 && Instr.badNumber c)

/-- The trap that an outcome has taken. -/
def trapOf (o : Out) : Option (Nat × Word × Word) :=
  match o with
  | .next s => (match s.last with | .trapped c a i => some (c, a, i) | _ => none)
  | _ => none

/-- The A-class word, its sources read as they stood before the pair. -/
def runA (a : Instr) (old : Thread) (s : State) : Out := exec a { s with snap := some old, inPair := false }

/-- The thread as the A-class word of its pair reads it: as it stands, or as it stood when the C-class word made its request (R22). -/
def Thread.asRead (t : Thread) : Thread :=
  match t.sources with
  | some r => { t with s := r.s, v := r.v, m := r.m }
  | none => t

/-- A pair parks with the request of its C-class word made: the sources of its A-class word are read and its queue entries popped, and
the entries that both words push are taken, so that neither can trap for the A-class word any more (R10, R22, R31). -/
def State.holdPair (s : State) (old : Thread) (c a : Instr) : State :=
  let s := (popsOf a.uses).foldl (fun s k => (s.pop k).2) s
  (s.setThread { s.thread with sources := some ⟨old.s, old.v, old.m⟩ }).reserve (pushesOf (c.uses ++ a.uses))

/-- The stochastic draws that an item takes of its thread when it is positioned (R10, R157). -/
def Work.draws (w : Work) : Nat :=
  match w.body with
  | .handle (.ld _ run) _ | .handle (.gat _ _ run) _ =>
    (match run.entry with | some (e, _) => if modeOf (entryOf e).rm = .sr then run.count else 0 | none => 0)
  | _ => 0

/-- The state whose A-class word is tested when the C-class word of its pair, issued in s, has made its request in s': the C-class word's
pops are done, and so are the steps of the LFSR that its request will take (R22). -/
def State.asRequested (s s' : State) : State :=
  let n := ((s'.work.filter (fun w => decide (s.nextId ≤ w.id))).map Work.draws).foldl (· + ·) 0
  (s.setMe { s.me with queues := s'.me.queues }).setThread { s.thread with srs := (srsDraws s.thread.srs n).2 }

/-- The queue entries that the A-class word of a parked pair is to push: those left when the C-class word has filled its own. -/
def Thread.keptFor (t : Thread) (c : Instr) : List (Nat × Nat) := if t.sources.isSome then t.promised.drop (pushesOf c.uses).length else []

/-- The queue entries that were popped for the A-class word of a parked pair. -/
def Thread.heldFor (t : Thread) (a : Instr) : List (Nat × QEntry) := if t.sources.isSome then t.popped.take (popsOf a.uses).length else []

/-- The C-class word. -/
def runC (c : Instr) (s : State) : Out := exec c { s with snap := none, inPair := true }

/-- The pair has ended: it is one instruction no longer. -/
def endPair (o : Out) : Out :=
  match o with
  | .next s => .next { s with snap := none, inPair := false }
  | o => o

/-- `trap`, `brk` and `halt`, before which the A-class word completes (R22). -/
def Instr.trapping (i : Instr) : Bool := match i with | .trap _ | .brk | .halt => true | _ => false

/-- The pair traps: neither word has an effect (R22). -/
def pairTrap (s : State) (t : Nat × Word × Word) : Out := .next ({ s with snap := none, inPair := true }.trap t.1 t.2.1 t.2.2)

/-- The A-class word first, and then the C-class word that traps or halts. -/
def aThenC (c a : Instr) (s : State) : Out :=
  if c = .halt ∧ s.outstanding s.curCore s.curSlot then .next s.park
  else
    match runA a s.thread s with
    | .next s' =>
      match s'.last with
      | .trapped x y z => pairTrap s (x, y, z)
      | .parked => .next s.park
      | .completed => runC c s'
    | o => o

/-- The C-class word first, and then the A-class word. A trap of either leaves no effect of the other; the C-class word's
comes first but for registers beyond the mode (R36). A trap of the A-class word is taken before the C-class word makes a request. -/
def cThenA (c a : Instr) (s : State) : Out :=
  let old := s.thread.asRead
  let mine := s.thread.heldFor a
  match runC c s with
  | .next s' =>
    match s'.last with
    | .trapped x .. =>
      if s.me.beyondMode a.uses ∧ !Instr.trapsFirst c x then pairTrap s (0x02, 0, 0) else .next s'
    | .parked =>
      if s.thread.pend.engaged then .next s'
      else if s'.thread.pend.engaged ∨ s'.nextId ≠ s.nextId ∨ s.me.beyondMode a.uses then
        match trapOf (runA a old (s.asRequested s')) with
        | some t => pairTrap s t
        | none => .next (if s'.thread.pend.engaged then s'.holdPair old c a else s')
      else .next s'
    | .completed =>
      if s'.thread.slot ≠ .ready then .next s'
      else
        let u := (s.yieldTo s' a).setMe ((s.yieldTo s' a).me.putBack mine)
        match runA a old (u.setThread { u.thread with promised := s.thread.keptFor c }) with
        | .next s'' =>
          match s''.last with
          | .trapped x y z => pairTrap s (x, y, z)
          | .parked => .next s.park
          | .completed => .next s''
        | o => o
  | o => o

/-- Issues a pair: its queues must be ready for both words together, until its request has been made (R31); while they are not, it
takes only the traps that do not wait for them. -/
def issuePair (w : Bool) (c a : Instr) (s : State) : Out :=
  if s.mustWait w then .next s.park
  else if !s.thread.pend.engaged ∧ !s.me.queuesReady (c.uses ++ a.uses) then
    match trapOf (exec c s) with
    | some (x, y, z) =>
      if Instr.trapsFirst c x then pairTrap s (x, y, z)
      else if s.me.beyondMode (c.uses ++ a.uses) then pairTrap s (0x02, 0, 0)
      else .next s.park
    | none => if s.me.beyondMode a.uses then pairTrap s (0x02, 0, 0) else .next s.park
  else endPair (if Instr.trapping c then aThenC c a s else cThenA c a s)

/-! ## Words (R20, R21, R36) -/

/-- A word with its P bit clear. -/
def clearP (x : BitVec 32) : BitVec 32 := x &&& ~~~((1 : BitVec 32) <<< 31)

/-- The fields of a word that transfers to a register's value, with those that it does not use cleared (R36). -/
def Fields.transfer (f : Fields) : Fields :=
  if f.major = 0x04 then { f with b := 0 } else if f.major = 0x17 ∧ f.fn = 1 then { f with a := 0, b := 0, c := 0 } else f

/-- Words that are no instruction where they stand: 0x01, unless the first transfers to a misaligned target (R36). -/
noncomputable def illegal (x : BitVec 32) (s : State) : Out :=
  match decodeFields (Fields.transfer (splitWord (clearP x))) with
  | .ok i =>
    match trapOf (exec i.instr s) with
    | some (0x03, y, _) => .next (s.trap 0x03 y)
    | _ => exec .illegalInstruction s
  | .error _ => exec .illegalInstruction s

/-- Issues a lone word (R21). -/
noncomputable def issueWord (x : BitVec 32) (s : State) : Out :=
  match decodeWord x with
  | .ok i => if i.p then illegal x s else issueOne i.w i.instr s
  | .error _ => illegal x s

/-- Issues two words that stand together: a jl.l or a pair (R20, R21, R27). -/
noncomputable def issueWords (x y : BitVec 32) (s : State) : Out :=
  if isJlL x then
    match decodeJlL x y with
    | .ok i => issueOne i.w i.instr s
    | .error _ => illegal x s
  else
    match decodeWord x, decodeWord y with
    | .ok i, .ok j => if isAClass y && !j.p then issuePair (i.w || j.w) i.instr j.instr s else illegal x s
    | _, _ => illegal x s

/-- The word at an address takes the next one with it: P = 1 at a multiple of eight (R20, R21). -/
def takesNext (pc : Word) (x : BitVec 32) : Bool := x.getLsbD 31 && pc.toNat % 8 == 0

/-! ## A thread's turn -/

/-- Fetches the words of the acting thread's next instruction, or traps or stalls. The second word of a pair lies in the block of the
first (R20, R197). -/
def State.fetchWords (s : State) : Except Out (List (BitVec 32)) × State :=
  let pc := s.thread.pc
  match s.fetch pc with
  | (.word x y, s) => (.ok (if takesNext pc x then [x, y] else [x]), s)
  | (.trap c, s) => (.error (.next (s.trapAt pc c pc 0)), s)
  | (.stall b tr, s) => (.error (.next (s.startFetch b tr)), s)

/-- Issues fetched words. -/
noncomputable def issueList (l : List (BitVec 32)) (s : State) : Out :=
  match l with
  | [x] => issueWord x s
  | [x, y] => issueWords x y s
  | _ => exec .illegalInstruction s

/-- After a turn: a parked instruction keeps its words, what waited for its end takes effect. -/
def afterTurn (l : List (BitVec 32)) (o : Out) : Out :=
  match o with
  | .next s =>
    let keep := s.last == .parked && (match s.thread.pend with | .fetch _ => false | _ => true)
    let s := s.setThread { s.thread with latch := if keep then l else [] }
    .next (s.settle s.curCore s.curSlot)
  | o => o

/-- The thread's fetch stall has ended. -/
def State.fetched (s : State) : State :=
  match s.thread.pend with
  | .fetch _ => s.setThread { s.thread with pend := .none }
  | _ => s

/-- A thread's turn to issue: the instruction that it has parked on, or the next one that it fetches. -/
noncomputable def attempt (core slot : Nat) (s : State) : Out :=
  let s : State := { s.at_ core slot with last := .completed }
  match s.thread.latch with
  | [] =>
    match s.fetchWords with
    | (.ok l, s) => afterTurn l (issueList l s.fetched)
    | (.error o, _) => afterTurn [] o
  | l => afterTurn l (issueList l s)

/-! ## A core's cycle (R133-R136, R342) -/

/-- The thread may be chosen: it competes, no trap of it waits for results, and it is not about to stop, unless its instruction has
had its effect. -/
def State.mayIssue (s : State) (core slot : Nat) : Bool :=
  let t := s.threadAt core slot
  t.competes && t.pendTrap.isNone && ((!t.errDue && t.stopping.isNone) || s.midway core slot)

/-- A parked thread's condition has come to hold: its turn would get it further (R132). -/
noncomputable def State.unblocked (s : State) (core slot : Nat) : Bool :=
  match attempt core slot s with
  | .next s' => s'.last != .parked || s'.nextId != s.nextId || (s'.threadAt core slot).pend != (s.threadAt core slot).pend
  | _ => true

/-- The slot issues in this cycle if its position has come round. -/
def State.canIssue (s : State) (core slot : Nat) : Bool := s.mayIssue core slot && (s.threadAt core slot).slot == .ready

/-- A PARKED slot whose condition has come to hold is READY again, however many wait for the same thing (R132); one that waits to stop
and cannot get further stops (R137). -/
noncomputable def State.promote (s : State) (core slot : Nat) : State :=
  let t := s.threadAt core slot
  if t.slot = .parked ∧ s.mayIssue core slot ∧ s.unblocked core slot then s.setThreadAt core slot { t with slot := .ready }
  else s.finishStop core slot true

/-- The positions of a cycle in their order: the counter's own slot under lockstep, else all from the pointer (R133, R134). -/
def Core.positions (c : Core) : List Nat :=
  if c.lockstep then [c.rot] else (List.range (contexts c.mode)).map (fun k => (c.ptr + k) % contexts c.mode)

/-- The slot that issues in this cycle. -/
def State.pick (s : State) (core : Nat) : Option Nat := (s.core core).positions.find? (s.canIssue core)

/-- The thread waits at a marker. -/
def State.atMarker (s : State) (core slot : Nat) : Bool :=
  let t := s.threadAt core slot
  t.slot == .parked && t.pend == .none && t.pendTrap.isNone && t.latch.any (fun w => w.getLsbD 30) && s.outstanding core slot

/-- A thread's counters after a cycle: it has issued, or it is parked for a fetch or for anything else (R322, R342). -/
def Thread.count (t : Thread) (issued : Bool) : Thread :=
  if issued then { t with issued := t.issued + 1 }
  else if t.slot = .parked then
    match t.pend with
    | .fetch _ => { t with fstall := t.fstall + 1 }
    | _ => { t with park := t.park + 1 }
  else t

/-- An item ages by a cycle (R322). -/
def Item.older (i : Item) : Item := { i with age := min 0xFFFFFFFF (i.age + 1) }

/-- Accesses of a core that wait for their banks: nothing holds them back any more (R342). -/
def State.bankWaits (s : State) (core : Nat) : Nat :=
  (s.work.filter (fun w => w.core == core && w.request && w.arrived.isNone && decide (0x10000 ≤ w.home ∧ w.home < 0x10800) && s.clear w)).length

/-- Items age, and those that wait at the core's input too, while the partition is not halted (R322, R339). -/
def Core.older (c : Core) (halted : Bool) : Core :=
  if halted then c
  else { c with deques := c.deques.map (fun d => { d with items := d.items.map Item.older }), input := c.input.map Item.older }

/-- The end of a core's cycle: the rotation goes on, everything that counts cycles counts, deques take what has room, and parked slots
whose condition holds are READY for the next cycle. ptr moves in lockstep too (log 75). -/
noncomputable def State.endCycle (s : State) (core : Nat) (slot : Option Nat) (issued : Bool) : State :=
  let c := s.core core
  let n := contexts c.mode
  let number (p : Thread → Bool) : Nat := (c.threads.toList.filter p).length
  let waits := ((s.array core).waiting.filter (fun h => h.1 == core)).length
  let markers := ((List.range 16).filter (s.atMarker core)).length
  let s := (s.countEvent core 6 waits).countEvent core 7 markers
  let s := if c.evSel.toList.contains 3 then s.countEvent core 3 (s.bankWaits core) else s
  let c := s.core core
  let threads : Vector Thread 16 := Vector.ofFn (fun i => c.threads[i].count (issued && slot == some i.val))
  let c := { c.older (s.halted core) with threads := threads, ptr := (match slot with | some i => (i + 1) % n | none => c.ptr) }
  let c := { c with search := c.search + BitVec.ofNat 64 (number (fun (t : Thread) => t.inTake && t.slot == SlotState.parked)), run := c.run + BitVec.ofNat 64 (number (·.item.isSome)) }
  let c := { c with cycles := c.cycles + 1, clock := if s.halted core then c.clock else c.clock + 1 }
  let rot := (c.rot + 1) % n
  let s := s.setCore core ({ c with rot := rot, boundary := rot == 0 }).settleDeques
  (List.range 16).foldl (fun s i => s.promote core i) s

/-- A core's cycle: the slot whose position has come round issues, if any can (R133). -/
noncomputable def cycle (core : Nat) (s : State) : Out :=
  match s.pick core with
  | none => .next (s.endCycle core none false)
  | some slot =>
    match attempt core slot s with
    | .next s' => .next (s'.endCycle core (some slot) (s'.last != .parked))
    | o => o

end Sys2Proof.Machine
end

