-- ==== Sys2Proof/Machine/Schedule.lean ====
section
/-! DEFINITION. What may happen next: the events that are pending, and the unit whose cycle comes (log 5). -/

set_option Elab.async false

namespace Sys2Proof.Machine

open Sys2Proof

/-! ## Pending events -/

/-- The events that an item in flight may be due. -/
noncomputable def Work.events (w : Work) : List Instr :=
  let k := w.id
  match w.body with
  | .load .. | .store .. | .amo .. | .bar .. | .fut .. | .resolve .. | .monArm .. | .upQuery .. | .tlRd .. | .done .. | .notify .. | .lex .. =>
    [.homeAccess k]
  | .ret .. => [.loadReturn k]
  | .fe .. => [.fullEmptyArrival k]
  | .writeBack .. => [.writeBack k]
  | .fetch .. => [.fetchReturn k]
  | .msg .. => [.messageArrival k]
  | .handle .. => [.handleCommandArrival k, .handleCommandCompletion k, .wideningConversion k]
  | .mx .. => [.arrayCommandCompletion k]
  | .bank .. => [.bankCommandPerformed k]
  | .pair .. => [.pairArrival k]
  | .flush .. => [.flushArrival k]
  | .close .. => [.closeArrival k]
  | .copy .. => [.copyCompletion k]
  | .inval .. => [.invalidationArrival k, .invalidationAcknowledgement k]
  | .item .. => [.itemArrival k]
  | .seal .. => [.sealArrival k]
  | .notice .. => [.resumeNotice k]
  | .launch .. => [.launchCompletion k]
  | .steal .. => [.stealRequest k]
  | .stolen .. => [.stealReply k]
  | .probe .. => [.probeToken k]
  | .emergency .. => [.emergencyEntryRequest k]
  | .phRun .. => [.phraseRunCompletion k]
  | .migrate .. => [.migrate k, .release k, .migrationCompletion k]
  | .preempt .. => [.save k, .restore k, .move k, .unfwd k, .preemptionCompletion k]
  | .debug .. => [.debugHalt k, .debugResume k]
  | .discovery .. => [.discoveryPacket k]
  | .image .. => [.imageDelivery k]
  | .imageAck .. => [.imageAcknowledgement k]

/-- The events that an outside request of an index may be due. -/
noncomputable def HostInput.events (x : HostInput) (k : Nat) : List Instr :=
  match x with
  | .reset => [.powerOnReset]
  | .litar m =>
    (match m.body with
      | .boot .. => [.boot k]
      | .launch .. => [.launch k]
      | .map .. => [.map k]
      | .copyIn .. | .copyOut .. => [.copy k]
      | .query => [.query k]
      | .quote _ => [.quote k]
      | .power .. => [.power k]
      | .unknown => []) ++ [.undefinedLitarMessage k]
  | .foreign _ => [.nonLitarFrame k]
  | .pfc .. => [.priorityFlowControl k]
  | .scedy .. => [.scedyFlit k]
  | .linkDown .. => [.linkLoss k]
  | .debugger _ halt => [if halt then .debugHalt 0 else .debugResume 0]

/-- The timed events of a core. -/
noncomputable def coreEvents (core : Nat) (c : Core) : List Instr :=
  (if c.steals.isEmpty then [] else [.stealBackoffExpiry core]) ++ (if c.emitParked.isEmpty then [] else [.probeTimeout core]) ++
  ((List.range 16).filter (fun i => match (c.thread i).pend with | .deadline _ => true | _ => false)).map (fun i => .monitorTimeout core i)

/-- Every event that may be due. -/
noncomputable def State.candidates (s : State) : List Instr :=
  s.work.flatMap Work.events ++
  s.regions.flatMap (fun r => r.shares.map (fun x => .applicationEnd r.sid x.chan)) ++
  s.dies.flatMap (fun d => d.2.graphs.map (fun g => .waveDrain d.1 g.num)) ++
  s.clusters.flatMap (fun c => [.leaseGrant c.1, .leaseWatchdogExpiry c.1]) ++
  s.cores.flatMap (fun c => coreEvents c.1 c.2) ++
  s.phraseReqs.map (fun r => .phraseLeaseGrant r.chan) ++
  s.entering.map (fun e => .channelPowerEntry e.chan) ++
  s.power.map (fun p => .channelWake p.1) ++
  s.inputs.zipIdx.flatMap (fun p => p.1.events p.2) ++
  [.bootPortTimeout]

/-! ## The turns of a bank (R222) -/

/-- The bank, as it stands now, of the scratchpad access that an item makes next, if it makes one. -/
def State.directBank (s : State) (w : Work) : Option Nat :=
  let of (a : Access) : Option Nat := if a.via = .scratch ∧ isScratch (s.fwd a.key) then some (s.bankAt a.key) else none
  match w.body with
  | .load (a :: _) .. | .store a .. | .amo _ a .. | .fe _ a .. | .bar _ a _ | .fut _ a .. => of a
  | _ => none

/-- A direct access waits at a bank's input. -/
def State.directWaits (s : State) (bank : Nat) : Bool :=
  s.work.any (fun w => w.arrived.isNone && s.directBank w == some bank && s.clear w)

/-- A command waits in a bank's queue. -/
def State.commandWaits (s : State) (bank : Nat) : Bool :=
  s.work.any (fun w => match w.body with | .bank _ d .. => s.bankAt d == bank && s.bankFirst w d | _ => false)

/-- The bank whose line an event accesses, and whether it is a command's access. -/
def State.lineAccess (s : State) (i : Instr) : Option (Nat × Bool) :=
  match i with
  | .bankCommandPerformed k => (s.findWork k).bind (fun w => match w.body with | .bank _ d .. => some (s.bankAt d, true) | _ => none)
  | .homeAccess k | .fullEmptyArrival k => (s.findWork k).bind (fun w =>
      if w.arrived.isNone && !w.sending then (s.directBank w).map (·, false) else none)
  | _ => none

/-- The latest line access of a bank was a command's. -/
def State.afterCommand (s : State) (bank : Nat) : Bool := (s.core (coreOfKey (bank * 2 ^ 14))).bankTurn.getLsbD (bank % 16)

/-- A bank has made a line access of one side. -/
def State.tookTurn (s : State) (bank : Nat) (command : Bool) : State :=
  let k := coreOfKey (bank * 2 ^ 14)
  let c := s.core k
  if c.bankTurn.getLsbD (bank % 16) = command then s
  else s.setCore k { c with bankTurn := c.bankTurn ^^^ ((1 : BitVec 16) <<< (bank % 16)) }

/-- The other side of the bank waits and it is its turn. -/
def State.othersTurn (s : State) (bank : Nat) (command : Bool) : Bool :=
  s.afterCommand bank == command && (if command then s.directWaits bank else s.commandWaits bank)

/-! ## The turns of a phrase unit (R329) -/

/-- The channel whose phrase unit an item's lease run is to run at next. -/
def State.runChan (s : State) (w : Work) : Option Nat :=
  match w.body with
  | .phRun run => (s.phraseLease run.lease).bind (fun l => if run.num = l.done + 1 ∧ s.clear w then some l.chan else none)
  | _ => none

/-- The channels whose phrase units a positioned command of an inflection controller is to use next: a phrase, or a conversion (R13,
R85). -/
def State.commandChans (s : State) (w : Work) : List Nat :=
  let of (h : Nat) : List Nat := match s.tensor h with
    | some t => (t.frames.flatMap (fun f => (List.range 16).map (fun i => channelOf (f + 256 * i)))).eraseDups
    | none => []
  match w.body with
  | .handle (.phr h ..) _ | .handle (.widen h _ (some _)) _ => if s.first w then of h else []
  | _ => []

/-- The item that an event at phrase units performs. -/
def unitItem (i : Instr) : Option Nat :=
  match i with
  | .phraseRunCompletion k | .handleCommandCompletion k | .wideningConversion k => some k
  | _ => none

/-- No unit that an item uses has the other kind of work waiting after one of its own kind. -/
def State.unitsFree (s : State) (w : Work) : Bool :=
  (match s.runChan w with
    | some c => !(s.phraseTurn.contains c && s.work.any (fun x => (s.commandChans x).contains c))
    | none => true) &&
  (s.commandChans w).all (fun c => s.phraseTurn.contains c || s.work.all (fun x => s.runChan x != some c))

/-- The turns of the units after an item has left. -/
def State.tookUnits (s s' : State) (w : Work) : State :=
  if (s'.findWork w.id).isSome then s'
  else
    let own := s.commandChans w
    let rest := s'.phraseTurn.filter (fun c => !own.contains c)
    { s' with phraseTurn := match s.runChan w with | some c => insertNat c rest | none => rest }

/-! ## What an event gives -/

/-- The event is of the side whose turn it is, at its bank (R222) or its phrase units (R329). -/
def State.itsTurn (s : State) (i : Instr) : Bool :=
  (match s.lineAccess i with | some (bank, command) => !s.othersTurn bank command | none => true) &&
  (match (unitItem i).bind s.findWork with | some w => s.unitsFree w | none => true)

/-- The turns after an event. -/
def State.afterTurn (s s' : State) (i : Instr) : State :=
  let s' := match s.lineAccess i with | some (bank, command) => s'.tookTurn bank command | none => s'
  match (unitItem i).bind s.findWork with | some w => s.tookUnits s' w | none => s'

/-- What an event gives, if it is pending; the two sides of a bank, and of a phrase unit, take turns while both wait (R222, R329). -/
noncomputable def State.tryEvent (s : State) (i : Instr) : Option State :=
  if !s.itsTurn i then none
  else
    match exec i s with
    | .next s' => some (s.afterTurn s' i)
    | _ => none

/-- The first pending event. -/
noncomputable def State.firstEvent (s : State) : Option State := s.candidates.findSome? s.tryEvent

/-- The data cache's choice to evict a sector (R194). -/
noncomputable def State.evictions (s : State) : List Instr := s.clusters.flatMap (fun c => c.2.sectors.map (fun x => .eviction c.1 x.key))

/-! ## The units' turns (R2) -/

/-- The cores whose cycles pass: die 0's corner core and every core that has a state of its own. -/
def State.liveCores (s : State) : List Nat := (0 :: s.cores.map (·.1)).eraseDups

/-- A unit that counts cycles of its own: a core, or the array of a cluster. -/
inductive ClockUnit where
  | core (num : Nat)
  | array (cluster : Nat)
deriving DecidableEq, Repr

/-- The units whose cycles pass: the cores, and the arrays that a thread holds. -/
def State.units (s : State) : List ClockUnit :=
  s.liveCores.map .core ++ (s.clusters.filter (fun c => c.2.array.holder.isSome)).map (fun c => .array c.1)

/-- The unit whose cycle is next. -/
def State.nextUnit (s : State) : ClockUnit := (s.units[s.turn % s.units.length]?).getD (.core 0)

/-- A core's next step: its rotation boundary, or its cycle (R133). -/
noncomputable def coreStep (core : Nat) (s : State) : Out :=
  if (s.core core).boundary then exec (.rotationBoundary core) s else cycle core s

/-- An array's cycle: its lease watchdog counts (R202). -/
def arrayStep (cluster : Nat) (s : State) : Out :=
  let c := s.cluster cluster
  .next (s.setCluster cluster { c with array := c.array.tick s })

/-- A unit's next step. -/
noncomputable def unitStep (u : ClockUnit) (s : State) : Out :=
  match u with
  | .core n => coreStep n s
  | .array c => arrayStep c s

/-- The step of the unit whose turn it is. -/
noncomputable def nextCycle (s : State) : Out := unitStep s.nextUnit { s with turn := s.turn + 1 }

/-- Takes the pending event or the unit's step that a choice names, among all there are. -/
noncomputable def chosen (c : Nat) (s : State) : Out :=
  let events := (s.candidates ++ s.evictions).filterMap s.tryEvent
  let n := c % (events.length + s.units.length)
  match events[n]? with
  | some s' => .next s'
  | none => unitStep (s.units[n - events.length]?.getD (.core 0)) s

/-- A moment passes (log 7). -/
def advance (o : Out) : Out :=
  match o with
  | .next s => .next { s with tick := s.tick + 1 }
  | o => o

/-! ## Placing an instruction -/

/-- The page that holds a placed instruction: die 0's first frame, at address 0, with every right. -/
def placedPage : Trans := ⟨0, true, 0, 4096, 0x3F⟩

/-- The bytes of a placed instruction, its words in order and the lowest byte first, as a number. -/
def placedBits (nbits w : Nat) : Nat := bytesNat (tableBytes nbits w)

/-- The thread that runs a placed instruction: slot 0 of core 0, ready to issue at address 0. -/
def placedThread (t : Thread) : Thread :=
  { t with pc := 0, slot := .ready, competes := true, pend := .none, pendTrap := none, errTrap := none, stopping := none, latch := [],
           popped := [], promised := [], sources := none, line := none }

end Sys2Proof.Machine
end

