-- ==== Sys2Proof/Machine/Step.lean ====
section
/-! DEFINITION. One step of the package, and the placing of an instruction where the next step fetches. -/

set_option Elab.async false

namespace Sys2Proof.Machine

open Sys2Proof

/-- One step: a pending event, or a cycle of the unit whose turn it is. With nothing scripted, events come first, in the
order of what they wait on (log 5). -/
noncomputable def step (s : State) : Host.Outcome State Fault Refusal :=
  match s.sched with
  | [] =>
    match s.firstEvent with
    | some s' => advance (.next s')
    | none => advance (nextCycle s)
  | c :: r => advance (chosen c { s with sched := r })

/-- The state with an instruction placed where the next step fetches one: its bytes in memory, in the first frame of die 0 and
in the core's instruction cache, and slot 0 of core 0 ready there (log 15). -/
def State.withFetchWord (s : State) (nbits w : Nat) : State :=
  let c := s.core 0
  let block : VWord := BitVec.ofNat 512 (placedBits nbits w)
  let c := { c with icache := (0, block) :: c.icache.filter (fun b => b.1 != 0), itlb := placedPage :: c.itlb, boundary := false,
                    lockstep := false, ptr := 0 }
  let c := c.setThread 0 (placedThread (c.thread 0))
  { s.setCore 0 c with mem := memWrite s.mem 0 (placedBits nbits w) (bytesMask 8) 8, sched := [], turn := 0 }

end Sys2Proof.Machine
end

