-- ==== Sys2Proof/Safety.lean ====
section
/-! DEFINITION. The terms in which claims are stated: what an instruction completes with, what a step leaves alone, and the
invariants of the machine. -/

set_option Elab.async false

namespace Sys2Proof.Machine

open Sys2Proof

/-! ## The thread that acts -/

/-- The acting thread is one of its core's sixteen slots (R129). -/
def State.placed (s : State) : Prop := s.curSlot < 16

/-- Every operand code names a register, and none a queue (R29). -/
def registers (l : List Opd) : Prop := ∀ c ∈ l, c.isQueue = false

/-- Every vector operand code is a register that the mode provides (R32). -/
def State.provides (s : State) (l : List Opd) : Prop := ∀ c ∈ l, c.toNat < vectorRegs s.me.mode

/-- The value of a scalar operand that is a register: s0 reads zero (R30). In a pair, the sources are read as they stood
before it (R22). -/
def State.scalar (s : State) (r : Opd) : Word := if r = 0 then 0 else vget s.src.s r.toNat 0

/-- The value of a vector operand that is a register. -/
def State.vector (s : State) (r : Opd) : VWord := vget s.src.v r.toNat 0

/-- The value of a mask operand: m0 has every lane enabled (R30). -/
def State.maskReg (s : State) (r : Opd) : MWord := if r = 0 then BitVec.allOnes 16 else vget s.src.m r.toNat 0

/-! ## Frames -/

/-- Of the cores, nothing but the acting thread has changed. -/
def OnlyMyThread (s t : State) : Prop :=
  (∀ c, c ≠ s.curCore → t.core c = s.core c) ∧
  t.me = { s.me with threads := t.me.threads } ∧
  ∀ k, k ≠ s.curSlot → t.me.thread k = s.me.thread k

/-- Nothing but the acting thread has changed, and what the latest word did. -/
def OnlyThread (s t : State) : Prop := t = { s with cores := t.cores, last := t.last } ∧ OnlyMyThread s t

/-- Items numbered from n on, as they are sent one after another. -/
def numbered (n : Nat) : List Work → List Work
  | [] => []
  | w :: r => { w with id := n } :: numbered (n + 1) r

/-- Nothing but the acting thread has changed, and the items in flight that it has sent. -/
def OnlySends (s t : State) (items : List Work) : Prop :=
  t = { s with cores := t.cores, last := t.last, work := s.work ++ numbered s.nextId items, nextId := s.nextId + items.length } ∧
  OnlyMyThread s t

/-- The acting thread after an instruction that has completed: it goes on at the next address; the A-class word of a pair
leaves the address to the C-class word (R22). -/
def State.after (s : State) : Thread :=
  { s.thread with pc := if s.snap.isSome then s.thread.pc else s.nextPc, slot := .ready, pend := .none, popped := [],
                  promised := [], sources := none }

/-- The instruction completes, and changes the acting thread alone, to what `f` makes of the thread that goes on. -/
def Writes (i : Instr) (s : State) (f : Thread → Thread) : Prop :=
  ∃ t, exec i s = .next t ∧ t.last = .completed ∧ OnlyThread s t ∧ t.thread = f s.after

/-- The instruction completes, sends items, and changes nothing else but the acting thread. -/
def Sends (i : Instr) (s : State) (items : List Work) (f : Thread → Thread) : Prop :=
  ∃ t, exec i s = .next t ∧ t.last = .completed ∧ OnlySends s t items ∧ t.thread = f s.after

/-- The same from the state `s'` that checking its addresses leaves: translation fills TLBs, and reads what it follows at its home
(R196, R278). -/
def SendsFrom (i : Instr) (s s' : State) (items : List Work) (f : Thread → Thread) : Prop :=
  ∃ t, exec i s = .next t ∧ t.last = .completed ∧ OnlySends s' t items ∧ t.thread = f s'.after

/-- The accesses of the acting thread's lanes sent one after another: several are one run, which no access of another thread divides
(R183). -/
def SendsLanes (i : Instr) (s s' : State) (items : List Work) (f : Thread → Thread) : Prop :=
  ∃ t, exec i s = .next t ∧ t.last = .completed ∧ t.thread = f s'.after ∧ OnlySends s' { t with cores := s'.cores } items ∧
    (∀ c, c ≠ s.curCore → t.core c = s'.core c) ∧
    t.me = { s'.me with threads := t.me.threads, laneRuns := t.me.laneRuns } ∧ (∀ k, k ≠ s.curSlot → t.me.thread k = s'.me.thread k) ∧
    ((∀ w ∈ s'.work, w.id < s'.nextId) →
      let own := ((numbered s'.nextId items).filter (fun w => w.home == 0x10000 + s.curCore)).map (·.id)
      if own.length < 2 then t.me.laneRuns = s'.me.laneRuns else t.me.laneRuns.getLast? = some own)

/-- The instruction sends a request and parks until it is answered (R132). -/
def Asks (i : Instr) (s s' : State) (item : Work) : Prop :=
  ∃ t, exec i s = .next t ∧ t.last = .parked ∧ OnlySends s' t [item] ∧
    t.thread = { s'.thread with slot := .parked, pend := .wait 70 [s'.nextId] }

/-- The instruction completes. -/
def Completes (i : Instr) (s : State) : Prop := ∃ t, exec i s = .next t ∧ t.last = .completed ∧ t.thread = s.after

/-- The instruction cannot issue: it parks and does nothing else (R132). -/
def Parks (i : Instr) (s : State) : Prop :=
  ∃ t, exec i s = .next t ∧ t.last = .parked ∧ OnlyThread s t ∧ t.thread = { s.thread with slot := .parked }

/-- A release of the acting thread at a scope (R111, R112). -/
def State.releasing (s : State) (scope home : Nat) (body : Body) : Work :=
  { s.item home (s.releaseDeps scope) false body with flush := if 2 ≤ scope then some scope else none }

/-- Nothing but what holders keep of translations, choices made about it, and channels that a walk's reads have woken, with the
replies to their requests, has changed (R278, R300). -/
def OnlyTranslations (s t : State) : Prop :=
  t = { s with cores := t.cores, dies := t.dies, sched := t.sched, power := t.power, entering := t.entering, outbox := t.outbox,
               replies := t.replies } ∧
  (∀ c, t.core c = { s.core c with itlb := (t.core c).itlb, dtlb := (t.core c).dtlb }) ∧
  ∀ d, t.die d = { s.die d with tlb := (t.die d).tlb }

/-- The instruction traps: it does nothing but take the exception (R10). -/
def Traps (i : Instr) (s : State) (cause : Nat) (taddr tinfo : Word) : Prop := exec i s = .next (s.trap cause taddr tinfo)

/-! ## Items in flight -/

/-- Nothing at the home that the item has reached holds it up: its channel is awake (R300), no run of lanes is under way there (R183), and
its core is not being moved (R337). -/
def State.homeOpen (s : State) (w : Work) : Prop :=
  (∀ c, channelHomed w.home = some c → s.channelAwake c = true) ∧ s.betweenLanes w = false ∧ s.holdsArrival w = false

/-- The item of a number may be performed now: all it must wait for has left, a release has been sent (R111, R247), and its home takes
it. -/
def State.lands (s : State) (k : Nat) (w : Work) : Prop :=
  s.findWork k = some w ∧ s.clear w = true ∧ w.flush = none ∧ (w.release = true → w.deps = []) ∧ s.homeOpen w

/-- The same, and the links have left its data as they were (R121). -/
def State.due (s : State) (k : Nat) (w : Work) : Prop := s.lands k w ∧ w.link = .clean

/-- Nothing that a read at its home changes is there to change: the acting thread's cluster caches no sector, no update region is open, and
no correctable error waits (R121, R196, R228). -/
def State.walksClear (s : State) : Prop := (s.cluster (clusterOf s.curCore)).sectors = [] ∧ s.regions = [] ∧ s.soft = []

/-- Memory and caches hold no error (R122, R195). -/
def State.errorFree (s : State) : Prop := s.bad = [] ∧ s.soft = [] ∧ s.dirtySoft = [] ∧ s.parity = []

/-- The state once the item has arrived at its channel, if its home is one (R300). -/
def State.arrive (s : State) (w : Work) : State := match channelHomed w.home with | some c => s.touchChannel c | none => s

/-- No open update region holds up what the item accesses (R228, R240). -/
def State.unheld (s : State) (w : Work) : Prop := s.regionAccess w = (true, s)

/-- The item's access may be performed at its home at once: the issuing cluster holds no sector of it, and no region holds it
up (R196, R240). -/
def State.reaches (s : State) (w : Work) (a : Access) : Prop :=
  (a.via = .scratch ∨ (s.sectorBusy w.core a.key = false ∧ (s.cluster (clusterOf w.core)).sector a.key = none)) ∧ s.unheld w

/-- x is what the acting thread reads at issue as n bytes of windows 0 and 1 from an address (R73). -/
def State.operandIs (s : State) (ea : Word) (n beyond x : Nat) : Prop :=
  ∃ r, s.rawRun ea n beyond = .ok r ∧ s.runReadable r = true ∧ x = (s.readRun s.curCore r).1

/-- x is the block of 64 bytes that the acting thread reads at issue at an address (R73). -/
def State.blockIs (s : State) (ea : Word) (x : Nat) : Prop :=
  ∃ a s', s.blockAt ea 64 = .ok a ∧ s.readNow a = some (x, s')

/-- A handle command of the acting thread on its way to a controller, with the bytes that later accesses of the thread wait for
(R12, R74). -/
def State.command (s : State) (die : Nat) (cmd : HandleCmd) (holds : List (Nat × Nat × Bool)) : Work :=
  { s.item (controllerHome die) [] false (.handle cmd none) with holds := holds }

/-- The item on its way back with a result (R24). -/
def Work.back (w : Work) (dst : Dst) (v : VWord) (bad : Option Word) (g : FFlags) (trans : List Trans) : Work :=
  { w with home := 0, deps := [], acquire := false, flush := none, arrived := none, holds := [], body := .ret dst v bad g trans }

/-- Byte i of a number. -/
def byteAt (x i : Nat) : Byte := BitVec.ofNat 8 (x / 256 ^ i)

/-- Items in flight have different numbers. -/
def State.distinct (s : State) : Prop := (s.work.map (·.id)).Nodup

/-- Memory has its canonical form. -/
def State.memOk (s : State) : Prop := Memory.wf s.mem = true

/-- Of a memory in its canonical form, only the masked bits of n bytes from a key are written; words that hold an uncorrectable
error aside (R250). -/
def WritesBytes (s t : State) (key n data mask : Nat) : Prop :=
  s.memOk →
  (∀ i, i < n → s.bad.contains ((key + i) / 8) = false →
    memGet t.mem (key + i) = (memGet s.mem (key + i) &&& ~~~(byteAt mask i)) ||| (byteAt data i &&& byteAt mask i)) ∧
  ∀ a, (a < key ∨ key + n ≤ a) → s.bad.contains (a / 8) = false → memGet t.mem a = memGet s.mem a

/-- The same of the bytes of ranges that do not overlap, one range after another. -/
def WritesRun (s t : State) (ranges : List (Nat × Nat)) (data mask : Nat) : Prop :=
  s.memOk → ranges.Pairwise (fun p q => p.1 + p.2 ≤ q.1 ∨ q.1 + q.2 ≤ p.1) →
  (∀ before key n behind i, ranges = before ++ (key, n) :: behind → i < n → s.bad.contains ((key + i) / 8) = false →
    let j := (before.map (·.2)).sum + i
    memGet t.mem (key + i) = (memGet s.mem (key + i) &&& ~~~(byteAt mask j)) ||| (byteAt data j &&& byteAt mask j)) ∧
  ∀ a, (∀ p ∈ ranges, a < p.1 ∨ p.1 + p.2 ≤ a) → s.bad.contains (a / 8) = false → memGet t.mem a = memGet s.mem a

/-- A memory in its canonical form keeps every byte; words that hold an uncorrectable error aside. -/
def KeepsBytes (s t : State) : Prop := s.memOk → ∀ a, s.bad.contains (a / 8) = false → memGet t.mem a = memGet s.mem a

/-! ## Results -/

/-- The thread with a scalar register written: s0 discards (R30). -/
def Thread.withScalar (t : Thread) (d : Opd) (x : Word) : Thread := if d = 0 then t else { t with s := vset t.s d.toNat x }

/-- The thread with a mask register written: m0 discards (R30). -/
def Thread.withMask (t : Thread) (d : Opd) (x : MWord) : Thread := if d = 0 then t else { t with m := vset t.m d.toNat x }

/-- The instruction completes and changes nothing but one scalar register and the address. -/
def WritesScalar (i : Instr) (s : State) (d : Opd) (x : Word) : Prop := Writes i s (fun t => t.withScalar d x)

/-- The instruction completes and changes nothing but one mask register and the address. -/
def WritesMask (i : Instr) (s : State) (d : Opd) (x : MWord) : Prop := Writes i s (fun t => t.withMask d x)

/-- Where a scalar result that returns later goes: s0 discards (R24, R30). -/
def dstOf (d : Opd) : Dst := if d = 0 then .none else .s d.toNat

/-- An item of the acting thread that carries a result back (R24). -/
def State.returning (s : State) (d : Dst) (x : VWord) : Work := s.item 0 [] false (.ret d x none 0 [])

/-- The vector v has the lanes of f where the mask is set, and those of `old` elsewhere (R166). -/
def lanesAre (v old : VWord) (mask : MWord) (f : Nat → Lane) : Prop :=
  ∀ k, k < 16 → lane v k = if mask.getLsbD k then f k else lane old k

/-- The instruction completes and changes nothing but the active lanes of one vector register and the address. -/
def WritesLanes (i : Instr) (s : State) (d : Opd) (mask : MWord) (f : Nat → Lane) : Prop :=
  ∃ v, lanesAre v (vget s.thread.v d.toNat 0) mask f ∧ Writes i s (fun t => { t with v := vset t.v d.toNat v })

/-! ## Floating-point results -/

/-- The flags that the active lanes raise, ORed together (R166). -/
def flagsOf (mask : MWord) (g : Nat → FFlags) : FFlags :=
  (List.range 16).foldl (fun acc k => if mask.getLsbD k then acc ||| g k else acc) 0

/-- The draw for the n-th element from now, counted from 0: the LFSR steps under SR only (R157). -/
def State.drawAt (s : State) (mode : Mode) (n : Nat) : Nat :=
  if mode = .sr then srsDraw ((n + 1).repeat srsStep s.thread.srs) else 0

/-- The LFSR after n elements have been rounded under a mode: it steps under SR only (R157). -/
def State.srsAfter (s : State) (mode : Mode) (n : Nat) : BitVec 32 := if mode = .sr then n.repeat srsStep s.thread.srs else s.thread.srs

/-- No flag raised is enabled (R99). -/
def State.quiet (s : State) (g : FFlags) : Prop := s.src.enables &&& g = 0

/-- The thread with flags raised and its LFSR stepped. -/
def Thread.raised (t : Thread) (g : FFlags) (x : BitVec 32) : Thread := { t with fflags := t.fflags ||| g, srs := x }

/-- A value rounded to FP32 under RM with the next draw, and all flags raised (R98, R157). -/
def State.rounded (s : State) (v : Val × FFlags) : Word × FFlags :=
  let r := Machine.round fp32 s.mode false (s.drawAt s.mode 0) v.1
  (BitVec.ofNat 64 r.1, v.2 ||| r.2)

/-- The instruction writes a scalar and raises flags, with n elements rounded under a mode; or, with one of the flags enabled,
it traps with 0x30 and the flags, and has no other effect (R99). -/
def WritesFloat (i : Instr) (s : State) (d : Opd) (r : Word × FFlags) (mode : Mode) (n : Nat) : Prop :=
  (s.quiet r.2 → Writes i s (fun t => (t.withScalar d r.1).raised r.2 (s.srsAfter mode n))) ∧
  (¬ s.quiet r.2 → Traps i s 0x30 0 (r.2.setWidth 64))

/-- The same of an instruction whose result returns later (R24). -/
def SendsFloat (i : Instr) (s : State) (d : Opd) (r : Word × FFlags) (mode : Mode) (n : Nat) : Prop :=
  (s.quiet r.2 → Sends i s [s.returning (dstOf d) (r.1.setWidth 512)] (fun t => t.raised r.2 (s.srsAfter mode n))) ∧
  (¬ s.quiet r.2 → Traps i s 0x30 0 (r.2.setWidth 64))

/-- The same of a vector result under a mask: f gives each active lane and its flags (R166). -/
def WritesFloatLanes (i : Instr) (s : State) (d : Opd) (mask : MWord) (f : Nat → Lane × FFlags) (mode : Mode) (n : Nat) : Prop :=
  let g := flagsOf mask (fun k => (f k).2)
  (s.quiet g → ∃ v, lanesAre v (vget s.thread.v d.toNat 0) mask (fun k => (f k).1) ∧
    Writes i s (fun t => ({ t with v := vset t.v d.toNat v }).raised g (s.srsAfter mode n))) ∧
  (¬ s.quiet g → Traps i s 0x30 0 (g.setWidth 64))

/-- The same of a vector result that returns later. -/
def SendsFloatLanes (i : Instr) (s : State) (d : Opd) (mask : MWord) (f : Nat → Lane × FFlags) (mode : Mode) (n : Nat) : Prop :=
  let g := flagsOf mask (fun k => (f k).2)
  (s.quiet g → ∃ v, lanesAre v 0 mask (fun k => (f k).1) ∧
    Sends i s [s.returning (.v d.toNat mask.toNat) v] (fun t => t.raised g (s.srsAfter mode n))) ∧
  (¬ s.quiet g → Traps i s 0x30 0 (g.setWidth 64))

/-- The active lanes below lane k: the draws that its own follows (R157, R166). -/
def lanesBelow (mask : MWord) (k : Nat) : Nat := (List.range k).countP mask.getLsbD

/-- A value rounded to an FP32 lane under a mode, with the draw of lane k's only element. -/
def State.roundedLane (s : State) (mode : Mode) (mask : MWord) (k : Nat) (v : Val × FFlags) : Lane × FFlags :=
  let r := Machine.round fp32 mode false (s.drawAt mode (lanesBelow mask k)) v.1
  (BitVec.ofNat 32 r.1, v.2 ||| r.2)

/-! ## Control nodes -/

/-- A code that AFTER may hold: END, or a control node of the graph (R312). -/
def Graph.afterOk (x : Graph) (a : Nat) : Prop := a = 0xFFFF ∨ ∃ i, a = 0x8000 + i ∧ i < x.nodes.length

/-- A live graph is within the limits of R308 and R312: every arm names what the graph has, a node has the arms of its kind, and so has
what waits for the wave to drain. -/
def Graph.ok (x : Graph) : Prop :=
  x.stages.length ≤ 256 ∧ x.nodes.length ≤ 32 ∧ (∀ a, x.after = some a → x.afterOk a) ∧
  ∀ nd ∈ x.nodes, (if nd.kind = 3 then 1 ≤ nd.arms.length else nd.arms.length = 2) ∧
    ∀ arm ∈ nd.arms, (arm.target < x.stages.length ∨ x.afterOk arm.target) ∧ x.afterOk arm.after

/-- Control nodes evaluated in a row, at most n of them, from node i on: the first arm whose target is no node, with the tuple (N, ITER),
and the graph as the evaluations leave it; none where the n-th names a node again (R314). -/
def Graph.evaluate (x : Graph) : Nat → Nat → Option (Arm × Word × Word × Graph)
  | 0, _ => none
  | n + 1, i =>
    match x.nodes[i]? with
    | none => none
    | some nd =>
      let v := vget x.notify nd.reg 0
      let loop := nd.kind = 1
      let y := if loop ∧ nd.pick v = 0 then { x with nodes := x.nodes.set i { nd with iter := nd.iter + 1 } } else x
      match nd.arms[nd.pick v]? with
      | none => none
      | some arm =>
        if 0x8000 ≤ arm.target ∧ arm.target ≠ 0xFFFF then y.evaluate n (arm.target - 0x8000)
        else some (arm, v, if loop then BitVec.ofNat 64 nd.iter else 0, y)

/-- Every live graph is within its limits. -/
def State.graphsOk (s : State) : Prop := ∀ d, ∀ x ∈ (s.die d).graphs, x.ok

/-! ## Invariants -/

/-- Every core is in one of the three modes (R129), its rotation counter names a slot of that mode (R133), and the slot that acts is one of
sixteen. -/
def State.coresOk (s : State) : Prop := s.curSlot < 16 ∧ ∀ c, (s.core c).mode ≤ 2 ∧ (s.core c).rot < contexts (s.core c).mode

/-- Items in flight have different numbers, and the next one is new. -/
def State.itemsOk (s : State) : Prop := s.distinct ∧ ∀ w ∈ s.work, w.id < s.nextId

/-- Sectors of data caches are of 64 bytes, each at a multiple of 64 (R193). -/
def State.sectorsOk (s : State) : Prop := ∀ cl, ∀ x ∈ (s.cluster cl).sectors, x.key % 64 = 0

/-- A step of the machine keeps a property of its state. -/
def Keeps (p : State → Prop) : Prop := ∀ s t, p s → step s = .next t → p t

end Sys2Proof.Machine
end

