-- ==== Sys2Proof/Certificates/Slice0/Obligations.lean ====
section
/-! DEFINITION. The statements for the provers. Each docstring names the rules it formalises. -/

set_option Elab.async false

open Sys2Proof Sys2Proof.Machine

/-! ## Scalar instructions -/

/-- R93: the scalar integer results, for registers; nothing else changes but the address. -/
def Obligations.ScalarResults : Prop :=
  ∀ (s : State) (d a b : Opd), s.placed → registers [d, a, b] →
    let x := s.scalar a
    let y := s.scalar b
    let n := y.toNat % 64
    let w := fun i z => WritesScalar i s d z
    let c := fun (p : Bool) => if p then (1 : Word) else 0
    w (.add d a b) (x + y) ∧ w (.sub d a b) (x - y) ∧ w (.and d a b) (x &&& y) ∧ w (.or d a b) (x ||| y) ∧
    w (.xor d a b) (x ^^^ y) ∧ w (.andn d a b) (x &&& ~~~y) ∧
    w (.shl d a b) (x <<< n) ∧ w (.shr d a b) (x >>> n) ∧ w (.sra d a b) (x.sshiftRight n) ∧
    w (.rol d a b) (x <<< n ||| x >>> (64 - n)) ∧
    w (.min d a b) (if x.sle y then x else y) ∧ w (.max d a b) (if x.sle y then y else x) ∧
    w (.minu d a b) (if x.ule y then x else y) ∧ w (.maxu d a b) (if x.ule y then y else x) ∧
    w (.mul d a b) (x * y) ∧
    w (.mulh d a b) ((x.signExtend 128 * y.signExtend 128).extractLsb' 64 64) ∧
    w (.mulhu d a b) ((x.setWidth 128 * y.setWidth 128).extractLsb' 64 64) ∧
    w (.clz d a) x.clz ∧ w (.ctz d a) x.reverse.clz ∧
    w (.popc d a) (BitVec.ofNat 64 ((List.range 64).countP x.getLsbD)) ∧
    w (.sextB d a) ((x.extractLsb' 0 8).signExtend 64) ∧ w (.sextH d a) ((x.extractLsb' 0 16).signExtend 64) ∧
    w (.sextW d a) ((x.extractLsb' 0 32).signExtend 64) ∧
    w (.zextB d a) (x &&& 0xFF) ∧ w (.zextH d a) (x &&& 0xFFFF) ∧ w (.zextW d a) (x &&& 0xFFFFFFFF) ∧
    w (.cmpEq d a b) (c (x == y)) ∧ w (.cmpNe d a b) (c (x != y)) ∧
    w (.cmpLt d a b) (c (x.slt y)) ∧ w (.cmpGe d a b) (c (!x.slt y)) ∧
    w (.cmpLtu d a b) (c (x.ult y)) ∧ w (.cmpGeu d a b) (c (!x.ult y))

/-- R94: division and remainder, whose results are long latency (R24): x div 0 is all ones, x rem 0 is x, and the quotient of
the most negative number by −1 wraps.
R95-R97: select, immediates and moves. -/
def Obligations.DivisionAndImmediateResults : Prop :=
  (∀ (s : State) (d a b : Opd), s.placed → registers [d, a, b] →
    let x := s.scalar a
    let y := s.scalar b
    let w := fun i (z : Word) => Sends i s [s.returning (dstOf d) (z.setWidth 512)] id
    w (.div d a b) (if y = 0 then BitVec.allOnes 64 else x.sdiv y) ∧
    w (.divu d a b) (if y = 0 then BitVec.allOnes 64 else x.udiv y) ∧
    w (.rem d a b) (if y = 0 then x else x.srem y) ∧
    w (.remu d a b) (if y = 0 then x else x.umod y)) ∧
  ∀ (s : State) (d a b c : Opd) (i : BitVec 12) (hw : BitVec 2) (x : BitVec 16), s.placed → registers [d, a, b, c] →
    let w := fun j z => WritesScalar j s d z
    let k := 16 * hw.toNat
    w (.sel d a b c) (if s.scalar c = 0 then s.scalar b else s.scalar a) ∧
    w (.addi d a i) (s.scalar a + i.signExtend 64) ∧ w (.andi d a i) (s.scalar a &&& i.signExtend 64) ∧
    w (.ori d a i) (s.scalar a ||| i.signExtend 64) ∧ w (.xori d a i) (s.scalar a ^^^ i.signExtend 64) ∧
    w (.movi d hw x) (x.setWidth 64 <<< k) ∧
    w (.movk d hw x) ((s.scalar d &&& ~~~((0xFFFF : Word) <<< k)) ||| x.setWidth 64 <<< k)

/-! ## Scalar floating point -/

/-- R98-R101: the rounded FP32 results: the exact value rounded under RM, its flags, the LFSR's step, and the trap 0x30.
R100, R101: the results that are not rounded. -/
def Obligations.FloatResults : Prop :=
  (∀ (s : State) (d a b c : Opd), s.placed → registers [d, a, b, c] →
    let x := decode fp32 ((s.scalar a).toNat % 2 ^ 32)
    let y := decode fp32 ((s.scalar b).toNat % 2 ^ 32)
    let z := decode fp32 ((s.scalar c).toNat % 2 ^ 32)
    let w := fun i v => WritesFloat i s d (s.rounded v) s.mode 1
    let l := fun i v => SendsFloat i s d (s.rounded v) s.mode 1
    w (.fadd d a b) (addV s.mode x y) ∧ w (.fsub d a b) (addV s.mode x y.negate) ∧ w (.fmul d a b) (mulV x y) ∧
    w (.ffma d a b c) (fmaV s.mode x y z) ∧ l (.fdiv d a b) (divV x y) ∧ l (.fsqrt d a) (sqrtV x) ∧
    w (.fcvtFI d a) (ofSigned (s.scalar a).toInt 0 false, 0) ∧ w (.fcvtFIu d a) (ofSigned (s.scalar a).toNat 0 false, 0)) ∧
  ∀ (s : State) (d a b : Opd), s.placed → registers [d, a, b] →
    let p : Lane := (s.scalar a).extractLsb' 0 32
    let q : Lane := (s.scalar b).extractLsb' 0 32
    let x := decode fp32 p.toNat
    let y := decode fp32 q.toNat
    let nan := x.isNan || y.isNan
    let quietly := x.sig ||| y.sig
    let loudly : FFlags := if nan then fNV else 0
    let c := fun (r : Bool) => if r then (1 : Word) else 0
    let w := fun i r => WritesFloat i s d r .rne 0
    w (.fmin d a b) ((minmax false p q).1.setWidth 64, (minmax false p q).2) ∧
    w (.fmax d a b) ((minmax true p q).1.setWidth 64, (minmax true p q).2) ∧
    w (.fclass d a) (1 <<< classOf p, 0) ∧
    w (.fcmpEq d a b) (c (!nan && !ltV x y && !ltV y x), quietly) ∧ w (.fcmpLt d a b) (c (!nan && ltV x y), loudly) ∧
    w (.fcmpLe d a b) (c (!nan && !ltV y x), loudly) ∧ w (.fcmpUn d a b) (c nan, quietly) ∧
    w (.fsgnJ d a b) ((q.extractLsb' 31 1 ++ p.extractLsb' 0 31).setWidth 64, 0) ∧
    w (.fsgnN d a b) ((~~~(q.extractLsb' 31 1) ++ p.extractLsb' 0 31).setWidth 64, 0) ∧
    w (.fsgnX d a b) (((p.extractLsb' 31 1 ^^^ q.extractLsb' 31 1) ++ p.extractLsb' 0 31).setWidth 64, 0) ∧
    w (.fcvtIF d a) (BitVec.ofInt 64 (truncate (-(2 ^ 63)) (2 ^ 63 - 1) x).1, (truncate (-(2 ^ 63)) (2 ^ 63 - 1) x).2) ∧
    w (.fcvtIuF d a) (BitVec.ofInt 64 (truncate 0 (2 ^ 64 - 1) x).1, (truncate 0 (2 ^ 64 - 1) x).2)

/-! ## Vector instructions -/

/-- R170, R171: the integer lanes, and the saturating packed elements. -/
def Obligations.VectorIntegers : Prop :=
  ∀ (s : State) (d a b : Opd) (m : BitVec 3), s.placed → registers [d, a, b] → s.provides [d, a, b] →
    let mask := s.maskReg (m.setWidth 6)
    let x := fun k => lane (s.vector a) k
    let y := fun k => lane (s.vector b) k
    let n := fun k => (y k).toNat % 32
    let w := fun i (f : Nat → Lane) => WritesLanes i s d mask f
    let part := fun (v : Lane) (bits j : Nat) => (v.extractLsb' (bits * j) bits).toInt
    let sat := fun (bits : Nat) (z : Int) => max (-(2 ^ (bits - 1))) (min (2 ^ (bits - 1) - 1) z)
    let p16 := fun (f : Int → Int → Int) (k : Nat) =>
      (BitVec.ofInt 16 (sat 16 (f (part (x k) 16 1) (part (y k) 16 1))) ++
        BitVec.ofInt 16 (sat 16 (f (part (x k) 16 0) (part (y k) 16 0))) : Lane)
    let b8 := fun (f : Int → Int → Int) (k j : Nat) => BitVec.ofInt 8 (sat 8 (f (part (x k) 8 j) (part (y k) 8 j)))
    let p8 := fun (f : Int → Int → Int) (k : Nat) => (b8 f k 3 ++ b8 f k 2 ++ b8 f k 1 ++ b8 f k 0 : Lane)
    w (.vaddI d a b m) (fun k => x k + y k) ∧ w (.vsubI d a b m) (fun k => x k - y k) ∧
    w (.vmulI d a b m) (fun k => x k * y k) ∧ w (.vand d a b m) (fun k => x k &&& y k) ∧
    w (.vor d a b m) (fun k => x k ||| y k) ∧ w (.vxor d a b m) (fun k => x k ^^^ y k) ∧
    w (.vandn d a b m) (fun k => x k &&& ~~~(y k)) ∧ w (.vshl d a b m) (fun k => x k <<< n k) ∧
    w (.vshr d a b m) (fun k => x k >>> n k) ∧ w (.vsra d a b m) (fun k => (x k).sshiftRight (n k)) ∧
    w (.vminI d a b m) (fun k => if (x k).sle (y k) then x k else y k) ∧
    w (.vmaxI d a b m) (fun k => if (x k).sle (y k) then y k else x k) ∧
    w (.vminu d a b m) (fun k => if (x k).ule (y k) then x k else y k) ∧
    w (.vmaxu d a b m) (fun k => if (x k).ule (y k) then y k else x k) ∧
    w (.vaddI16 d a b m) (p16 (fun u v => u + v)) ∧ w (.vsubI16 d a b m) (p16 (fun u v => u - v)) ∧
    w (.vaddI8 d a b m) (p8 (fun u v => u + v)) ∧ w (.vsubI8 d a b m) (p8 (fun u v => u - v))

/-- R166, R167, R169: the FP32 lanes act as their scalar counterparts do, with one draw for each active lane.
R168: the transcendentals round under RNE whatever RM holds, and their results are long latency. -/
def Obligations.VectorFloats : Prop :=
  (∀ (s : State) (d a b c : Opd) (m : BitVec 3), s.placed → registers [d, a, b, c] → s.provides [d, a, b, c] →
    let mask := s.maskReg (m.setWidth 6)
    let all := BitVec.allOnes 16
    let val := fun r k => decode fp32 (lane (s.vector r) k).toNat
    let count := fun (u : MWord) => lanesBelow u 16
    let w := fun i u (f : Nat → Val × FFlags) => WritesFloatLanes i s d u (fun k => s.roundedLane s.mode u k (f k)) s.mode (count u)
    let l := fun i u (f : Nat → Val × FFlags) => SendsFloatLanes i s d u (fun k => s.roundedLane s.mode u k (f k)) s.mode (count u)
    let e := fun i (f : Nat → Lane × FFlags) => WritesFloatLanes i s d mask f .rne 0
    w (.vadd d a b m) mask (fun k => addV s.mode (val a k) (val b k)) ∧
    w (.vsub d a b m) mask (fun k => addV s.mode (val a k) (val b k).negate) ∧
    w (.vmul d a b m) mask (fun k => mulV (val a k) (val b k)) ∧
    l (.vdiv d a b m) mask (fun k => divV (val a k) (val b k)) ∧
    l (.vsqrt d a m) mask (fun k => sqrtV (val a k)) ∧
    e (.vmin d a b m) (fun k => minmax false (lane (s.vector a) k) (lane (s.vector b) k)) ∧
    e (.vmax d a b m) (fun k => minmax true (lane (s.vector a) k) (lane (s.vector b) k)) ∧
    e (.vabs d a m) (fun k => (lane (s.vector a) k &&& 0x7FFFFFFF, 0)) ∧
    e (.vneg d a m) (fun k => (lane (s.vector a) k ^^^ 0x80000000, 0)) ∧
    w (.vfma d a b c) all (fun k => fmaV s.mode (val a k) (val b k) (val c k)) ∧
    w (.vfnma d a b c) all (fun k => fmaV s.mode (val a k).negate (val b k) (val c k))) ∧
  ∀ (s : State) (d a : Opd) (m : BitVec 3), s.placed → registers [d, a] → s.provides [d, a] →
    let mask := s.maskReg (m.setWidth 6)
    let l := fun i (f : Val → Val × FFlags) =>
      SendsFloatLanes i s d mask (fun k => s.roundedLane .rne mask k (f (decode fp32 (lane (s.vector a) k).toNat))) .rne 0
    l (.vexp2 d a m) exp2V ∧ l (.vlog2 d a m) log2V ∧ l (.vrcp d a m) rcpV ∧ l (.vrsq d a m) rsqV

/-- R171: the packed 16-bit floating forms, with one draw for each element in element order. -/
def Obligations.PackedFloats : Prop :=
  ∀ (s : State) (d a b : Opd) (m : BitVec 3), s.placed → registers [d, a, b] → s.provides [d, a, b] →
    let mask := s.maskReg (m.setWidth 6)
    let el := fun (fmt : Fmt) (f : Val → Val → Val × FFlags) (k j : Nat) =>
      let v := f (decode fmt ((lane (s.vector a) k).extractLsb' (16 * j) 16).toNat) (decode fmt ((lane (s.vector b) k).extractLsb' (16 * j) 16).toNat)
      let r := Machine.round fmt s.mode false (s.drawAt s.mode (2 * lanesBelow mask k + j)) v.1
      (BitVec.ofNat 16 r.1, v.2 ||| r.2)
    let w := fun i fmt f => WritesFloatLanes i s d mask
      (fun k => ((el fmt f k 1).1 ++ (el fmt f k 0).1, (el fmt f k 0).2 ||| (el fmt f k 1).2)) s.mode (2 * lanesBelow mask 16)
    w (.vaddBf d a b m) bf16 (addV s.mode) ∧ w (.vmulBf d a b m) bf16 mulV ∧
    w (.vaddHf d a b m) fp16 (addV s.mode) ∧ w (.vmulHf d a b m) fp16 mulV

/-- R172-R174: the compares write the active lanes' bits of a mask register, and the mask instructions.
R173, R175: selects and permutations. -/
def Obligations.MaskAndMoveResults : Prop :=
  (∀ (s : State) (d a b c : Opd) (m : BitVec 3), s.placed → registers [d, a, b, c] → s.provides [a, b] →
    let mask := s.maskReg (m.setWidth 6)
    let val := fun r k => decode fp32 (lane (s.vector r) k).toNat
    let x := fun k => lane (s.vector a) k
    let y := fun k => lane (s.vector b) k
    let nan := fun k => (val a k).isNan || (val b k).isNan
    let quietly := fun k => (val a k).sig ||| (val b k).sig
    let loudly : Nat → FFlags := fun k => if nan k then fNV else 0
    let w := fun i (f : Nat → Bool × FFlags) =>
      let g := flagsOf mask (fun k => (f k).2)
      (s.quiet g → ∃ r : MWord,
        (∀ k, k < 16 → r.getLsbD k = if mask.getLsbD k then (f k).1 else (vget s.src.m d.toNat 0).getLsbD k) ∧
        Writes i s (fun t => (t.withMask d r).raised g s.thread.srs)) ∧
      (¬ s.quiet g → Traps i s 0x30 0 (g.setWidth 64))
    w (.vcmpEq d a b m) (fun k => (!nan k && !ltV (val a k) (val b k) && !ltV (val b k) (val a k), quietly k)) ∧
    w (.vcmpLt d a b m) (fun k => (!nan k && ltV (val a k) (val b k), loudly k)) ∧
    w (.vcmpLe d a b m) (fun k => (!nan k && !ltV (val b k) (val a k), loudly k)) ∧
    w (.vcmpUn d a b m) (fun k => (nan k, quietly k)) ∧
    w (.vcmpEqI d a b m) (fun k => (x k == y k, 0)) ∧ w (.vcmpLtI d a b m) (fun k => ((x k).slt (y k), 0)) ∧
    w (.vcmpLtu d a b m) (fun k => ((x k).ult (y k), 0)) ∧
    WritesMask (.mand d a b) s d (s.maskReg a &&& s.maskReg b) ∧ WritesMask (.mor d a b) s d (s.maskReg a ||| s.maskReg b) ∧
    WritesMask (.mnot d a) s d (~~~(s.maskReg a)) ∧
    WritesScalar (.mpopc d a) s d (BitVec.ofNat 64 ((List.range 16).countP (s.maskReg a).getLsbD))) ∧
  ∀ (s : State) (d a b c e n : Opd) (m : BitVec 3), s.placed → registers [d, a, b, c, e] → s.provides [d, a, b] → n.toNat < 16 →
    let mask := s.maskReg (m.setWidth 6)
    let x := fun k => lane (s.vector a) k
    let y := fun k => lane (s.vector b) k
    WritesLanes (.vsel d a b c) s d (BitVec.allOnes 16) (fun k => if (s.maskReg c).getLsbD k then x k else y k) ∧
    WritesLanes (.vperm d a b m) s d mask (fun k => x ((y k).toNat % 16)) ∧
    WritesLanes (.vbcast d e m) s d mask (fun _ => (s.scalar e).extractLsb' 0 32) ∧
    WritesLanes (.vins d e n m) s d (mask &&& 1 <<< n.toNat) (fun _ => (s.scalar e).extractLsb' 0 32) ∧
    WritesScalar (.vext e a n) s e ((x n.toNat).setWidth 64)

/-- R164, R176: the reductions combine neighbours in a tree of four levels, inactive lanes at the identity. -/
def Obligations.VectorReductions : Prop :=
  ∀ (s : State) (d a : Opd) (m : BitVec 3), s.placed → registers [d, a] → s.provides [a] →
    let mask := s.maskReg (m.setWidth 6)
    let leaf := fun (ident : Lane) k => if mask.getLsbD k then lane (s.vector a) k else ident
    let add := fun (x y : Lane) =>
      let v := addV .rne (decode fp32 x.toNat) (decode fp32 y.toNat)
      let r := Machine.round fp32 .rne false 0 v.1
      (BitVec.ofNat 32 r.1, v.2 ||| r.2)
    let node := fun (f : Lane → Lane → Lane × FFlags) (x y : Lane × FFlags) => ((f x.1 y.1).1, x.2 ||| y.2 ||| (f x.1 y.1).2)
    let two := fun f (l : Nat → Lane) k => node f (l (2 * k), 0) (l (2 * k + 1), 0)
    let four := fun f l k => node f (two f l (2 * k)) (two f l (2 * k + 1))
    let eight := fun f l k => node f (four f l (2 * k)) (four f l (2 * k + 1))
    let all := fun f l => node f (eight f l 0) (eight f l 1)
    let w := fun i f l => WritesFloat i s d ((all f l).1.setWidth 64, (all f l).2) .rne 0
    w (.vredAdd d a m) add (leaf 0x80000000) ∧ w (.vredMax d a m) (minmax true) (leaf 0xFF800000) ∧
    w (.vredMin d a m) (minmax false) (leaf 0x7F800000)

/-- R177-R179: conversions between FP32 lanes and packed elements of a format without block scales. The narrowing forms keep
the inactive elements and every bit above the sixteen elements. -/
def Obligations.VectorConversions : Prop :=
  ∀ (s : State) (d a f : Opd) (m : BitVec 3) (fmt : Fmt), s.placed → registers [d, a] → s.provides [d, a] →
    vcvtFmt f.toNat = true → familyOf f.toNat = none → fmtOf f.toNat = some fmt →
    let mask := s.maskReg (m.setWidth 6)
    let w := fmt.width
    let old := vget s.src.v d.toNat 0
    let down := fun i mode sat =>
      let r := fun k => Machine.round fmt mode sat (s.drawAt mode (lanesBelow mask k)) (decode fp32 (lane (s.vector a) k).toNat)
      let g := flagsOf mask (fun k => (r k).2)
      (s.quiet g → ∃ v : VWord,
        (∀ k, k < 16 → v.extractLsb' (w * k) w = if mask.getLsbD k then BitVec.ofNat w (r k).1 else old.extractLsb' (w * k) w) ∧
        v.extractLsb' (16 * w) (512 - 16 * w) = old.extractLsb' (16 * w) (512 - 16 * w) ∧
        Writes i s (fun t => ({ t with v := vset t.v d.toNat v }).raised g (s.srsAfter mode (lanesBelow mask 16)))) ∧
      (¬ s.quiet g → Traps i s 0x30 0 (g.setWidth 64))
    WritesFloatLanes (.vcvtUp d a f m) s d mask
      (fun k => s.roundedLane s.mode mask k (decode fmt ((s.vector a).extractLsb' (w * k) w).toNat, 0)) s.mode (lanesBelow mask 16) ∧
    down (.vcvtDn d a f m) s.mode false ∧ down (.vcvtDnSat d a f m) s.mode true ∧
    down (.vcvtDnSr d a f m) .sr false ∧ down (.vcvtDnSrSat d a f m) .sr true ∧ down (.vcvtDnRtz d a f m) .rtz false

/-- R177-R179: conversions to and from a block of sixteen elements with its scale in the lowest byte. -/
def Obligations.BlockConversions : Prop :=
  ∀ (s : State) (d a f : Opd) (m : BitVec 3) (fam : Family), s.placed → registers [d, a] → s.provides [d, a] →
    vcvtFmt f.toNat = true → familyOf f.toNat = some fam →
    let mask := s.maskReg (m.setWidth 6)
    let w := widthOf f.toNat
    let old := vget s.src.v d.toNat 0
    let down := fun i mode sat =>
      let ds := if mode = .sr then (List.range 16).map (s.drawAt .sr) else []
      let (scale, codes, g) := encodeBlock fam.elem fam.scale mode sat ds
        ((List.range 16).map (fun k => decode fp32 (lane (s.vector a) k).toNat))
      (s.quiet g → ∃ v : VWord, v.extractLsb' 0 8 = BitVec.ofNat 8 scale ∧
        (∀ k, k < 16 → v.extractLsb' (8 + w * k) w = BitVec.ofNat w (codes.getD k 0)) ∧
        v.extractLsb' (8 + 16 * w) (504 - 16 * w) = old.extractLsb' (8 + 16 * w) (504 - 16 * w) ∧
        Writes i s (fun t => ({ t with v := vset t.v d.toNat v }).raised g (s.srsAfter mode 16))) ∧
      (¬ s.quiet g → Traps i s 0x30 0 (g.setWidth 64))
    WritesFloatLanes (.vcvtUp d a f m) s d mask
      (fun k => s.roundedLane s.mode mask k
        (blockVal fam.elem fam.scale ((s.vector a).extractLsb' 0 8).toNat ((s.vector a).extractLsb' (8 + w * k) w).toNat, 0))
      s.mode (lanesBelow mask 16) ∧
    down (.vcvtDn d a f 0) s.mode false ∧ down (.vcvtDnSat d a f 0) s.mode true ∧
    down (.vcvtDnSr d a f 0) .sr false ∧ down (.vcvtDnSrSat d a f 0) .sr true ∧ down (.vcvtDnRtz d a f 0) .rtz false

/-! ## Branches and jumps -/

/-- R26, R102: a conditional branch goes to the target when its condition holds, else on; a misaligned target traps with 0x03.
R27, R103-R105: the jumps, and the address that the linking ones leave in s1. -/
def Obligations.Transfers : Prop :=
  (∀ (s : State) (a b n : Opd) (off : BitVec 9), s.placed → registers [a, b] →
    let x := s.scalar a
    let y := s.scalar b
    let target := s.pc + off.signExtend 64 * 4
    let w := fun i (p : Bool) =>
      (p = true → target.toNat % 4 = 0 → Writes i s (fun t => { t with pc := target })) ∧
      (p = true → target.toNat % 4 ≠ 0 → Traps i s 0x03 target 0) ∧ (p = false → Writes i s id)
    w (.bEq a b off) (x == y) ∧ w (.bNe a b off) (x != y) ∧ w (.bLt a b off) (x.slt y) ∧ w (.bGe a b off) (!x.slt y) ∧
    w (.bLtu a b off) (x.ult y) ∧ w (.bGeu a b off) (!x.ult y) ∧
    w (.bBset a n off) (x.getLsbD n.toNat) ∧ w (.bBclr a n off) (!x.getLsbD n.toNat)) ∧
  ∀ (s : State) (a : Opd) (off : BitVec 24) (far : BitVec 48), s.placed → registers [a] →
    let w := fun i (target : Word) (f : Thread → Thread) =>
      (target.toNat % 4 = 0 → Writes i s (fun t => { f t with pc := target })) ∧
      (target.toNat % 4 ≠ 0 → Traps i s 0x03 target 0)
    let link := fun (x : Word) (t : Thread) => { t with s := vset t.s 1 x }
    let x := s.scalar a
    w (.j off) (s.pc + off.signExtend 64 * 4) id ∧ w (.jl off) (s.pc + off.signExtend 64 * 4) (link s.nextPc) ∧
    w (.jlL far) (s.pc + far.signExtend 64 * 4) (link (s.pc + 8)) ∧
    w (.jr a) (s.pc + x) id ∧ w (.jrA a) x id ∧ w (.jlr a) (s.pc + x) (link s.nextPc) ∧ w (.jlrA a) x (link s.nextPc)

/-! ## Memory instructions at issue -/

/-- R106, R107, R180: a load that passes its checks leaves as one access and its register is written when it returns; one that
fails traps with the check's cause and its address. R74: where bytes of it are to be written by an earlier handle command of its thread,
it parks and does nothing else.
R106, R107, R180: a store that passes its checks leaves with the register's low bytes. R74: where bytes of it are to be read or written
by an earlier handle command of its thread, it parks and does nothing else.
Accesses in flight are the model's list of items (log 7). -/
def Obligations.LoadsAndStores : Prop :=
  (∀ (s : State) (r b : Opd) (off : BitVec 9), s.placed → registers [r, b] →
    let ea := fun (n : Nat) => s.scalar b + off.signExtend 64 * BitVec.ofNat 64 n
    let w := fun i n (dst : Dst) ext =>
      (∀ a s', s.checkAddr (ea n) n rawWindows true { r := true } false = (.ok a, s') → s'.held a.key n false = false →
        SendsFrom i s s' [s'.item (s'.accessHome s.curCore a) [] false (.load [a] 0 0 none dst ext)] id) ∧
      (∀ a s', s.checkAddr (ea n) n rawWindows true { r := true } false = (.ok a, s') → s'.held a.key n false = true → Parks i s) ∧
      (∀ e s', s.checkAddr (ea n) n rawWindows true { r := true } false = (.error e, s') → Traps i s e (ea n) 0)
    w (.ldB r b off) 1 (dstOf r) .sign ∧ w (.ldH r b off) 2 (dstOf r) .sign ∧ w (.ldW r b off) 4 (dstOf r) .sign ∧
    w (.ldD r b off) 8 (dstOf r) .zero ∧ w (.ldBu r b off) 1 (dstOf r) .zero ∧ w (.ldHu r b off) 2 (dstOf r) .zero ∧
    w (.ldWu r b off) 4 (dstOf r) .zero ∧
    (r.toNat < vectorRegs s.me.mode → w (.vld r b off) 64 (.v r.toNat (2 ^ 16 - 1)) .raw)) ∧
  ∀ (s : State) (r b : Opd) (off : BitVec 9), s.placed → registers [r, b] →
    let ea := fun (n : Nat) => s.scalar b + off.signExtend 64 * BitVec.ofNat 64 n
    let w := fun i n (x : Nat) =>
      (∀ a s', s.checkAddr (ea n) n rawWindows true { w := true } false = (.ok a, s') → s'.held a.key n true = false →
        SendsFrom i s s' [s'.item (s'.accessHome s.curCore a) [] false (.store a (x % 2 ^ (8 * n)) (2 ^ (8 * n) - 1))] id) ∧
      (∀ a s', s.checkAddr (ea n) n rawWindows true { w := true } false = (.ok a, s') → s'.held a.key n true = true → Parks i s) ∧
      (∀ e s', s.checkAddr (ea n) n rawWindows true { w := true } false = (.error e, s') → Traps i s e (ea n) 0)
    w (.stB r b off) 1 (s.scalar r).toNat ∧ w (.stH r b off) 2 (s.scalar r).toNat ∧ w (.stW r b off) 4 (s.scalar r).toNat ∧
    w (.stD r b off) 8 (s.scalar r).toNat ∧ (r.toNat < vectorRegs s.me.mode → w (.vst r b off) 64 (s.vector r).toNat)

/-- R109: a full/empty access takes a scratchpad address; its loads are acquires and its stores are releases of the smallest
scope that holds the word.
R72, R109, R142: a full/empty access that arrives where no access waits, with nothing of its thread to wait for, is performed if the
word's bit allows it and every earlier access of its thread to the word has been performed, and waits there otherwise; a load takes the word and ld.fe empties it, a store writes the word and
fills it. -/
def Obligations.FullEmpty : Prop :=
  (∀ (s : State) (r b : Opd) (off : BitVec 9), s.placed → registers [r, b] →
    let ea := s.scalar b + off.signExtend 64 * 8
    let checked := s.checkAddr ea 8 rawWindows false {} false
    let load := fun i op take =>
      (∀ a s', checked = (.ok a, s') → s.held a.key 8 take = false →
        Sends i s [s.item (s.accessHome s.curCore a) [] true (.fe op a (dstOf r) 0)] id) ∧
      (∀ e s', checked = (.error e, s') → Traps i s e ea 0)
    let store := fun i op =>
      (∀ a s', checked = (.ok a, s') → s.held a.key 8 true = false →
        let scope := s.scope s.curCore a.key
        Sends i s [s.releasing scope (s.accessHome s.curCore a) (.fe op a .none (s.scalar r))] id) ∧
      (∀ e s', checked = (.error e, s') → Traps i s e ea 0)
    load (.ldFe r b off) .ldFe true ∧ load (.ldFf r b off) .ldFf false ∧ store (.stEf r b off) .stEf ∧ store (.stF r b off) .stF) ∧
  ∀ (s : State) (k : Nat) (w : Work) (op : FeOp) (a : Access) (dst : Dst) (x : Word),
    s.due k w → w.body = .fe op a dst x → s.gone w.deps = true → s.work.all (fun y => y.arrived.isNone) = true →
    let taken := BitVec.ofNat 512 ((s.arrive w).readNat a.key 8)
    let back := fun t => t.findWork k = some (w.back dst taken (if s.badAt a.key 8 then some a.ea else none) 0 [])
    let goes := fun (P : State → Prop) => ∃ t, exec (.fullEmptyArrival k) s = .next t ∧ P t
    let stored := fun (t : State) => t.findWork k = none ∧ t.isFull a.key = true ∧ WritesBytes s t (s.fwd a.key) 8 x.toNat (2 ^ 64 - 1)
    let waits := (s.threadAt w.core w.slot).halting = false →
      goes (fun t => t.findWork k = some { w with arrived := some s.tick } ∧ t.mem = s.mem ∧ t.full = s.full)
    let first := s.work.all (fun y => !(y.issuedBefore w && y.request && !y.isFe && y.body.accesses && y.touches a.key 8))
    (first = true →
      (op = .ldFe → s.isFull a.key = true → goes (fun t => back t ∧ t.isFull a.key = false ∧ KeepsBytes s t)) ∧
      (op = .ldFf → s.isFull a.key = true → goes (fun t => back t ∧ t.full = s.full ∧ KeepsBytes s t)) ∧
      (op = .stEf → s.isFull a.key = false → goes stored) ∧ (op = .stF → goes stored)) ∧
    ((op = .ldFe ∨ op = .ldFf) → s.isFull a.key = false → waits) ∧ (op = .stEf → s.isFull a.key = true → waits) ∧
    (first = false → waits)

/-- R108, R181, R188-R192: the accesses through format and plane windows, cut at 64-byte lines, with the draws of their
elements. That cr.srs is stepped for the draws at issue is the model's choice (log 61). -/
def Obligations.WindowAccesses : Prop :=
  ∀ (s : State) (r b : Opd) (off : BitVec 9), s.placed → registers [r, b] →
    let ea := s.scalar b + off.signExtend 64
    let draws := fun (w : WindowSpan) n => s.drawsFor (modeOf (entryOf w.entry).rm) n
    let load := fun i wins n (dst : Dst) =>
      (∀ w, s.windowSpan ea wins n = .ok w → (w.parts ea).all (fun p => !s.held p.1.key p.1.n false) = true →
        ∀ p l, (w.parts ea).map (·.1) = p :: l →
        SendsFrom i s (draws w n).2
          [s.item (s.accessHome s.curCore p) [] false (.load (p :: l) 0 0 none dst (.window w.entry w.bit n w.plane (draws w n).1))]
          (fun t => { t with srs := (draws w n).2.thread.srs })) ∧
      (∀ e, s.windowSpan ea wins n = .error e → Traps i s e ea 0)
    load (.ldw r b off) formatWindows 1 (dstOf r) ∧
    (r.toNat < vectorRegs s.me.mode → load (.vldw r b off) elementWindows 16 (.v r.toNat (2 ^ 16 - 1))) ∧
    (r.toNat < vectorRegs s.me.mode →
      (∀ w, s.windowSpan ea elementWindows 16 = .ok w → (w.parts ea).all (fun p => !s.held p.1.key p.1.n true) = true →
        let e := encodeSpan w (draws w 16).1 ((List.range 16).map (fun k => decode fp32 (lane (s.vector r) k).toNat))
        SendsFrom (.vstw r b off) s (draws w 16).2
          ((w.parts ea).map (fun p => s.item (s.accessHome s.curCore p.1) [] false
            (.store p.1 (e.1 / 2 ^ (8 * p.2) % 2 ^ (8 * p.1.n)) (e.2.1 / 2 ^ (8 * p.2) % 2 ^ (8 * p.1.n)))))
          (fun t => t.raised e.2.2 (draws w 16).2.thread.srs)) ∧
      (∀ e, s.windowSpan ea elementWindows 16 = .error e → Traps (.vstw r b off) s e ea 0))

/-- R182, R183: a gather makes one load for each active lane and a scatter one store, in lane order, all checked before any is
made; those to the core's own banks are one run, which no access of another of its threads divides; a failing lane traps with its address
and its number. -/
def Obligations.GatherScatter : Prop :=
  ∀ (s : State) (r b x : Opd) (m : BitVec 3), s.placed → registers [r, b, x] → s.provides [r, x] →
    let mask := s.maskReg (m.setWidth 6)
    let checked := s.laneAccesses (s.scalar b) (s.vector x) mask (List.range 16)
    (∀ l, checked = .ok l →
      (l.all (fun p => !s.held p.2.key p.2.n false) = true → SendsLanes (.vgat r b x m) s s
        (l.map (fun p => s.item (s.accessHome s.curCore p.2) [] false (.load [p.2] 0 0 none (.v r.toNat (2 ^ p.1)) (.lane p.1)))) id) ∧
      (l.all (fun p => !s.held p.2.key p.2.n true) = true → SendsLanes (.vsct r b x m) s s
        (l.map (fun p => s.item (s.accessHome s.curCore p.2) [] false (.store p.2 (lane (s.vector r) p.1).toNat (2 ^ 32 - 1)))) id)) ∧
    ∀ e ea k, checked = .error (e, ea, k) →
      Traps (.vgat r b x m) s e ea (BitVec.ofNat 64 k) ∧ Traps (.vsct r b x m) s e ea (BitVec.ofNat 64 k)

/-- R106: the causes of a failing address check, in their order, and the key of a scratchpad access; a global access needs a
translation.
The order of the checks where R106 leaves it open is the model's reading (log 19).
R276, R278, R300: where a walk's reads at the entries' homes find no sector of the cluster, no open region and no correctable error,
checking an address changes nothing but what the holders keep of translations, and channels that the walk has woken. (Elsewhere the
reads write the sector back and empty it, apply pending pairs, and correct: R121, R196, R228.) -/
def Obligations.AddressChecks : Prop :=
  (∀ (s : State) (ea : Word) (n : Nat) (wins : Nat → Bool) (global : Bool) (need : Need) (atHome : Bool), 0 < n →
    let top := ea.toNat / 2 ^ 56
    let r := (s.checkAddr ea n wins global need atHome).1
    (top ≠ 0 → top ≠ 0xF0 → r = .error 0x14) ∧
    (top = 0xF0 → s.wellPlaced ea.toNat = false → r = .error 0x14) ∧
    (top = 0xF0 → s.wellPlaced ea.toNat = true → wins (bits ea.toNat 55 52) = false → r = .error 0x15) ∧
    (top = 0xF0 → s.wellPlaced ea.toNat = true → wins (bits ea.toNat 55 52) = true → 2 ^ 22 ≤ ea.toNat % 2 ^ 22 + s.src.seg →
      r = .error 0x16) ∧
    (∀ e, top = 0xF0 → s.place ea.toNat s.src.seg wins = .error e → r = .error e) ∧
    (∀ p, top = 0xF0 → s.place ea.toNat s.src.seg wins = .ok p →
      r = if s.lastPresent p (ea.toNat % 2 ^ 22 + s.src.seg) n = false then .error 0x14
        else if ea.toNat % n ≠ 0 then .error 0x13 else .ok ⟨scratchKey p.core p.loc, n, .scratch, ea, []⟩) ∧
    (top = 0 → global = false → r = .error 0x15) ∧
    (top = 0 → global = true → ea.toNat % n ≠ 0 → r = .error 0x13) ∧
    (top = 0 → global = true → ea.toNat % n = 0 → ∀ e s', s.translateMe ea.toNat need = (.error e, s') → r = .error e) ∧
    ∀ t s', top = 0 → global = true → ea.toNat % n = 0 → s.translateMe ea.toNat need = (.ok t, s') →
      r = if s'.reachable s.curCore (t.keyOf ea.toNat) = false then .error 0x17
        else .ok ⟨t.keyOf ea.toNat, n, if atHome || bits t.pte 9 8 == 1 then .home else .cached, ea, [t]⟩) ∧
  ∀ (s : State) (ea : Word) (n : Nat) (wins : Nat → Bool) (global : Bool) (need : Need) (atHome : Bool),
    s.walksClear → OnlyTranslations s (s.checkAddr ea n wins global need atHome).2

/-- R110: the prefetches complete whatever their address is and trap on nothing. Unless the walk that translates the address has pairs of an
open region applied (R228), they write no register and no byte of memory, and unless it has a sector written back (R196), they send
nothing.
That a prefetch may fill or not is a choice of the model's schedule (log 24).
R111, R112: a fence whose thread has nothing to wait for completes: at .core and .cl at once; at .die and .sys it first writes
back the cluster's sectors that its core has written, waits for those write-backs, and then drops the cluster's fills. With
something of its thread to wait for, it parks until that has left, and goes on so. -/
def Obligations.PrefetchesAndFences : Prop :=
  (∀ (s : State) (l b : Opd) (off : BitVec 9), s.placed → registers [b] →
    let goes := fun i => ∃ t, exec i s = .next t ∧ t.last = .completed ∧ t.thread.slot = .ready ∧
      (s.regions = [] → t.thread = s.after ∧ t.mem = s.mem) ∧ (s.walksClear → t.work = s.work)
    goes (.pf l b off) ∧ goes (.ipf l b off)) ∧
  ∀ (s : State), s.placed →
    let near := fun i scope =>
      (s.thread.pend = .none → s.releaseDeps scope = [] → Writes i s id) ∧
      (s.thread.pend = .none → s.releaseDeps scope ≠ [] → exec i s = .next (s.parkWith (.wait 0 (s.releaseDeps scope)))) ∧
      ∀ ids, s.thread.pend = .wait 0 ids → (s.gone ids = true → Writes i s id) ∧ (s.gone ids = false → Parks i s)
    let far := fun i scope =>
      let flush := s.flushFor s.curCore scope
      let done := fun (s' : State) => ∃ t, exec i s = .next t ∧ t.last = .completed ∧ t.thread = s.after ∧ t.mem = s.mem ∧
        t.work = s'.work ∧ t.cluster (clusterOf s.curCore) = (s'.dropFills (clusterOf s.curCore)).cluster (clusterOf s.curCore)
      let writes := (flush.1 = [] → done flush.2) ∧ (flush.1 ≠ [] → exec i s = .next (flush.2.parkWith (.wait 1 flush.1)))
      (s.thread.pend = .none → s.releaseDeps scope = [] → writes) ∧
      (s.thread.pend = .none → s.releaseDeps scope ≠ [] → exec i s = .next (s.parkWith (.wait 0 (s.releaseDeps scope)))) ∧
      (∀ ids, s.thread.pend = .wait 0 ids → (s.gone ids = true → writes) ∧ (s.gone ids = false → Parks i s)) ∧
      ∀ ids, s.thread.pend = .wait 1 ids → (s.gone ids = true → done s) ∧ (s.gone ids = false → Parks i s)
    near .fenceCore 0 ∧ near .fenceCl 1 ∧ far .fenceDie 2 ∧ far .fenceSys 3

/-! ## Synchronisation at issue -/

/-- R252, R253: an atomic that passes its checks leaves for the home of its 4 or 8 bytes; amo.cas also carries the expected value.
R253: an atomic is one indivisible access: it writes the new value its operation gives, or nothing for a failed amo.cas,
and returns the old one. -/
def Obligations.Atomics : Prop :=
  (∀ (s : State) (half : Bool) (d a b : Opd), s.placed → registers [d, a, b] →
    let n := if half then 4 else 8
    let checked := s.checkAddr (s.scalar a) n rawWindows true { r := true, w := true } true
    let w := fun i op (e : Word) =>
      (∀ x s', checked = (.ok x, s') → s'.held x.key x.n true = false →
        SendsFrom i s s' [s'.item (s'.accessHome s.curCore x) [] false (.amo op x (dstOf d) (s.scalar b) e)] id) ∧
      (∀ c s', checked = (.error c, s') → Traps i s c (s.scalar a) 0)
    w (.amoAdd half d a b) .add 0 ∧ w (.amoAnd half d a b) .and 0 ∧ w (.amoOr half d a b) .or 0 ∧
    w (.amoXor half d a b) .xor 0 ∧ w (.amoMin half d a b) .min 0 ∧ w (.amoMax half d a b) .max 0 ∧
    w (.amoMinu half d a b) .minu 0 ∧ w (.amoMaxu half d a b) .maxu 0 ∧ w (.amoSwap half d a b) .swap 0 ∧
    w (.amoCas half d a b) .cas (s.scalar d)) ∧
  ∀ (s : State) (k : Nat) (w : Work) (op : AmoOp) (a : Access) (dst : Dst) (x e : Word),
    s.due k w → w.body = .amo op a dst x e → (s.arrive w).reaches w a → s.arrives w.core w.home a.key = true → (a.n = 4 ∨ a.n = 8) →
    let old := (s.arrive w).readNat a.key a.n
    let bits := 8 * a.n
    let p := BitVec.ofNat bits old
    let q := BitVec.ofNat bits x.toNat
    let new : BitVec bits := match op with
      | .add => p + q | .and => p &&& q | .or => p ||| q | .xor => p ^^^ q
      | .min => if p.sle q then p else q | .max => if p.sle q then q else p
      | .minu => if p.ule q then p else q | .maxu => if p.ule q then q else p
      | .swap => q | .cas => q
    let failed := op = .cas ∧ p ≠ BitVec.ofNat bits e.toNat
    ∃ t, exec (.homeAccess k) s = .next t ∧
      t.findWork k = some (w.back dst (BitVec.ofNat 512 old) (if s.badAt a.key a.n then some a.ea else none) 0 a.trans) ∧
      (failed → KeepsBytes s t) ∧ (¬ failed → WritesBytes s t (s.fwd a.key) a.n new.toNat (2 ^ bits - 1))

/-- R256, R257: a barrier instruction asks its object's home and parks; once it is answered it completes, and bar.wait then
acquires; a refusal traps. It asks once every earlier acquire of its thread has been performed (R109), and bar.arr and bar.exp, which
are releases, once what they release has been (R111); until then it parks and is tried again (R132).
R255, R256: a barrier operation at its home, in words without errors: init and a counted arrival or expectation write the object
and answer their thread, one that the rule refuses writes nothing, and a write answers the held waits whose phase has passed (where items in flight have different
numbers, as the machine keeps them: State.itemsOk); a wait is answered where its phase has passed, and else it is held.
R143, R258: the monitors: arming, registering, waiting and clearing. An arming asks once every earlier acquire of its thread has been
performed (R109). The granule is known by the key at which it is held now (R281). A registration whose path is lost is dropped and counted
(R297). That the timeout of a wait counts from its first try is the model's choice (log 63). -/
def Obligations.BarriersAndMonitors : Prop :=
  ((∀ (s : State) (a b : Opd), s.placed → registers [a, b] →
    let checked := s.checkAddr (s.scalar a) 16 rawWindows false {} false
    let w := fun i op (x : Word) (release : Bool) (f : Thread → Thread) =>
      (s.thread.pend = .none → ∀ acc s', checked = (.ok acc, s') →
        let home := s.accessHome s.curCore acc
        let scope := s.scope s.curCore acc.key
        let waits := s.acquiring = true ∨ (release = true ∧ s.releaseDeps scope ≠ [])
        (¬ waits → Asks i s s (if release then s.releasing scope home (.bar op acc x) else s.item home [] false (.bar op acc x))) ∧
        (waits → Parks i s)) ∧
      (s.thread.pend = .none → ∀ c s', checked = (.error c, s') → Traps i s c (s.scalar a) 0) ∧
      (∀ v, s.thread.pend = .answered v → Writes i s f) ∧
      (∀ c ta ti, s.thread.pend = .refused c ta ti → Traps i s c ta ti)
    w (.barInit a b) 0 (s.scalar b) false id ∧ w (.barArr a) 1 0 true id ∧ w (.barExp a b) 2 (s.scalar b) true id ∧
    w (.barWait a b) 3 (s.scalar b) false (fun t => { t with acquired := s.tick })) ∧
  ∀ (s : State) (k op : Nat) (w : Work) (a : Access) (arg : Word),
    s.due k w → w.body = .bar op a arg → a.via = .scratch → w.arrived = none → (s.arrive w).unheld w → s.bad = [] → s.soft = [] →
    w.slot < 16 → (s.threadAt w.core w.slot).pend = .wait 70 [k] →
    let b := barrierOf (s.readNat a.key 16)
    let sum := b.bytes + arg.toInt
    let goes := fun (P : State → Prop) => ∃ t, exec (.homeAccess k) s = .next t ∧ P t
    let told := fun (p : Pend) (t : State) => t.findWork k = none ∧ (t.threadAt w.core w.slot).pend = p
    let refused := goes (fun t => told (.refused 0x55 a.ea 0) t ∧ t.mem = s.mem)
    let written := fun (b : Barrier) => goes (fun t => told (.answered 0) t ∧
      WritesBytes s t (s.fwd a.key) 16 b.toNat (2 ^ 128 - 1) ∧
      (s.memOk → s.distinct → ∀ y ∈ s.work, ∀ c, y.body = .bar 3 a c → y.arrived.isSome = true → y.slot < 16 → c.toNat % 4096 ≠ b.phase →
        t.findWork y.id = none ∧ (t.threadAt y.core y.slot).pend = .answered 0))
    (op = 0 → if arg = 0 ∨ 2 ^ 20 ≤ arg.toNat then refused else written ⟨0, arg.toNat, arg.toNat, 0⟩) ∧
    (op = 1 → if b.pend = 0 then refused else written ({ b with pend := b.pend - 1 }).turn) ∧
    (op = 2 → if sum < -(2 ^ 63) ∨ 2 ^ 63 ≤ sum then refused else written ({ b with bytes := sum }).turn) ∧
    (op = 3 → b.phase ≠ arg.toNat % 4096 → goes (fun t => told (.answered 0) t ∧ t.mem = s.mem)) ∧
    (op = 3 → b.phase = arg.toNat % 4096 → goes (fun t => t.findWork k = some { w with arrived := some s.tick } ∧ t.mem = s.mem ∧
      t.threadAt w.core w.slot = { s.threadAt w.core w.slot with pend := .wait 92 [k] }))) ∧
  ∀ (s : State) (a b : Opd), s.placed → registers [a, b] →
    let t := s.thread
    let ea := s.scalar a
    let checked := s.checkAddr (ea &&& ~~~63) 64 rawWindows true { r := true, w := true } true
    let armed := fun (s' : State) (key : Nat) => s'.thread.monitors.any (fun m => m.key == s'.fwd key)
    let report := fun (timeout : Nat) => BitVec.ofNat 64 (t.hits + timeout + (if s.me.mailbox = [] then 0 else 32))
    let waits := fun (timeout : Nat) => Sends (.monWait a b) s [s.returning (dstOf a) ((report timeout).setWidth 512)] id
    (t.pend = .none → ∀ acc s', checked = (.ok acc, s') →
      (armed s' acc.key = true → SendsFrom (.monArm a) s s' [] id) ∧
      (armed s' acc.key = false → 4 ≤ s'.thread.monitors.length → Traps (.monArm a) s 0x56 ea 0) ∧
      (armed s' acc.key = false → s'.thread.monitors.length < 4 → s'.acquiring = true → Parks (.monArm a) s) ∧
      (armed s' acc.key = false → s'.thread.monitors.length < 4 → s'.acquiring = false →
        ∃ u, exec (.monArm a) s = .next u ∧ u.last = .parked ∧
          OnlySends s' u [s'.item (s'.homeOf s.curCore acc.key) [] false (.monArm s'.thread.freeMonitor (s'.fwd acc.key) acc.trans)] ∧
          u.thread = { s'.thread with
            slot := .parked, pend := .wait 70 [s'.nextId],
            monitors := s'.thread.monitors ++ [⟨s'.thread.freeMonitor, s'.fwd acc.key, ea, false, false⟩] })) ∧
    (∀ k w num key trans, s.due k w → w.body = .monArm num key trans → w.slot < 16 →
      (isScratch key = true ∨ (s.sectorBusy w.core key = false ∧ (s.cluster (clusterOf w.core)).sector key = none)) →
      (s.threadAt w.core w.slot).pend = .wait 70 [k] →
      let u := s.threadAt w.core w.slot
      let registers := u.monitors.map (fun m => if m.num = num ∧ m.key = key then { m with registered := true } else m)
      let live := s.arrives w.core w.home key
      ∃ v, exec (.homeAccess k) s = .next v ∧ v.findWork k = none ∧ v.mem = s.mem ∧
        v.threadAt w.core w.slot = { u with pend := .answered 0, monitors := if live then registers else u.monitors } ∧
        (v.core w.core).dropm = if live then (s.core w.core).dropm else min 0xFFFF ((s.core w.core).dropm + 1)) ∧
    (t.pend = .none → ∀ c s', checked = (.error c, s') → Traps (.monArm a) s c ea 0) ∧
    (∀ v, t.pend = .answered v → Writes (.monArm a) s id) ∧
    (t.pend = .none → report 0 = 0 →
      let n := (s.scalar b).toNat % 2 ^ 32
      ∃ u, exec (.monWait a b) s = .next u ∧ u.last = .parked ∧ OnlyThread s u ∧
        u.thread = { t with slot := .parked, pend := .deadline (if n = 0 then 0 else s.me.clock + n) }) ∧
    (t.pend = .none → report 0 ≠ 0 → waits 0) ∧ (∀ d, t.pend = .deadline d → report 0 ≠ 0 → waits 0) ∧
    (∀ d, t.pend = .deadline d → report 0 = 0 → Parks (.monWait a b) s) ∧
    (t.pend = .elapsed → waits 16) ∧
    Writes (.monClr a) s (fun t => { t with monitors := t.monitors.filter (fun m => !ea.getLsbD m.num) })

/-- R144, R260, R261: msg.send is a release to the mailbox of the core it names; msg.wait falls through when the mailbox holds a
message; msg.pop takes the oldest, acquires, and with one register named twice leaves the high word.
The depth of the buffers is a field of the model (log 16). -/
def Obligations.Messages : Prop :=
  ∀ (s : State) (a b c : Opd), s.placed → registers [a, b, c] →
    let dest := (s.scalar a).toNat
    (s.coreNamed (s.scalar a) = false → Traps (.msgSend a b c) s 0x57 (s.scalar a) 0) ∧
    (s.coreNamed (s.scalar a) = true → s.bufCap ≤ s.buffered s.curCore dest → Parks (.msgSend a b c) s) ∧
    (s.coreNamed (s.scalar a) = true → s.buffered s.curCore dest < s.bufCap →
      ∃ t, exec (.msgSend a b c) s = .next t ∧ t.last = .completed ∧ t.thread = s.after ∧ t.mem = s.mem ∧
        t.work = s.work ++ [{ s.releasing (s.coreScope s.curCore dest) (mailHome dest) (.msg dest ⟨s.scalar b, s.scalar c⟩) with id := s.nextId }]) ∧
    (s.me.mailbox = [] → Parks .msgWait s ∧ Parks (.msgPop a b) s) ∧ (s.me.mailbox ≠ [] → Writes .msgWait s id) ∧
    ∀ m r, s.me.mailbox = m :: r →
      ∃ t, exec (.msgPop a b) s = .next t ∧ t.last = .completed ∧ t.thread = { s.after with acquired := s.tick } ∧ t.mem = s.mem ∧
        t.me.mailbox = (if r.length < 16 then r ++ s.me.inbox.take 1 else r) ∧
        t.work = s.work ++ [{ s.returning (if a = b then .none else dstOf a) (m.lo.setWidth 512) with id := s.nextId },
          { s.returning (dstOf b) (m.hi.setWidth 512) with id := s.nextId + 1 }]

/-! ## What is performed at a home, and what returns -/

/-- R246, R250: a store that is performed at its home writes its bytes under its mask, and no other byte of memory; one whose data a link
has spoilt writes zeros (R122).
R193, R194: a store to a write-back page, not of an open region, goes into its cluster's sector: its bytes and its core are
marked, and memory keeps every byte. -/
def Obligations.StorePerformed : Prop :=
  (∀ (s : State) (k : Nat) (w : Work) (a : Access) (data mask : Nat),
    s.lands k w → w.body = .store a data mask → a.via ≠ .cached → (s.arrive w).reaches w a → s.arrives w.core w.home a.key = true →
    w.link ≠ .corrected →
    ∃ t, exec (.homeAccess k) s = .next t ∧ t.findWork k = none ∧
      WritesBytes s t (s.fwd a.key) a.n (if w.link = .corrupt then 0 else data) mask) ∧
  ∀ (s : State) (k : Nat) (w : Work) (a : Access) (data mask : Nat),
    s.due k w → w.body = .store a data mask → a.via = .cached → (s.arrive w).inRegion (a.key / 64 * 64) 64 = false →
    0 < a.n → a.key % 64 + a.n ≤ 64 →
    let old := ((s.cluster (clusterOf w.core)).sector a.key).getD { key := a.key / 64 * 64 }
    ∃ t x, exec (.homeAccess k) s = .next t ∧ t.findWork k = none ∧ t.mem = s.mem ∧
      (t.cluster (clusterOf w.core)).sector a.key = some x ∧ x.mask = old.mask ||| byteMask (a.key % 64) a.n ∧
      x.writers = old.writers ||| 1 <<< posOf w.core ∧ x.fill = old.fill ∧
      ∀ i, i < 64 → x.data.extractLsb' (8 * i) 8 =
        if a.key % 64 ≤ i ∧ i < a.key % 64 + a.n then byteAt data (i - a.key % 64) else old.data.extractLsb' (8 * i) 8

/-- R107, R249: a load of one part that is performed at its home takes the bytes there, words with an uncorrectable error as
zero, extended as its form told; memory keeps its bytes.
R193, R194, R251: a load from a write-back page, not of an open region, where nothing holds an error: its cluster's sector serves it where
every byte is there, marked or of a fill no older than its thread's latest acquire; else the sector is first filled from its home, which
replaces only bytes that are not marked; and where write-backs of the sector are on their way it waits for them. Memory keeps every
byte.
R5, R107: what a load's bytes become: little-endian, zero- or sign-extended. -/
def Obligations.LoadPerformed : Prop :=
  ((∀ (s : State) (k : Nat) (w : Work) (a : Access) (dst : Dst) (ext : Extend),
    s.due k w → w.body = .load [a] 0 0 none dst ext → a.via ≠ .cached → (s.arrive w).reaches w a → s.arrives w.core w.home a.key = true →
    let r := extendLoad ext a.n ((s.arrive w).readNat a.key a.n)
    ∃ t, exec (.homeAccess k) s = .next t ∧ KeepsBytes s t ∧
      t.findWork k = some (w.back dst r.1 (if s.badAt a.key a.n then some a.ea else none) r.2 a.trans)) ∧
  ∀ (s : State) (k : Nat) (w : Work) (a : Access) (dst : Dst) (ext : Extend),
    s.due k w → w.body = .load [a] 0 0 none dst ext → a.via = .cached → (s.arrive w).inRegion (a.key / 64 * 64) 64 = false →
    0 < a.n → a.key % 64 + a.n ≤ 64 → s.arrives w.core w.home a.key = true → s.errorFree → s.dirtyBad = [] →
    let cl := clusterOf w.core
    let line := a.key / 64 * 64
    let held := (s.cluster cl).sector a.key
    let old := held.getD { key := line }
    let serves := fun (x : Sector) => x.serves (byteMask (a.key % 64) a.n) (s.threadAt w.core w.slot).acquired
    let gives := fun (t : State) (data : VWord) =>
      let r := extendLoad ext a.n (lineBytes data (a.key % 64) a.n)
      t.findWork k = some (w.back dst r.1 none r.2 a.trans)
    let goes := fun (P : State → Prop) => ∃ t, exec (.homeAccess k) s = .next t ∧ t.mem = s.mem ∧ P t
    (∀ x, held = some x → x.bad = 0) →
    (∀ x, held = some x → serves x = true → goes (fun t => gives t x.data ∧ t.cluster cl = s.cluster cl)) ∧
    ((∀ x, held = some x → serves x = false) →
      (s.writeBacksAt w.core a.key ≠ [] →
        goes (fun t => t.findWork k = some { w with deps := s.writeBacksAt w.core a.key } ∧ t.cluster cl = s.cluster cl)) ∧
      (s.writeBacksAt w.core a.key = [] → (s.before w).all (fun x => !x.blocks { w with home := s.homeOf w.core a.key }) = true →
        goes (fun t => ∃ x, (t.cluster cl).sector a.key = some x ∧ x.fill = true ∧ x.filled = s.tick ∧ x.mask = old.mask ∧
          x.writers = old.writers ∧
          (∀ i, i < 64 → x.data.extractLsb' (8 * i) 8 =
            if old.mask.getLsbD i then old.data.extractLsb' (8 * i) 8 else memGet s.mem (s.fwd (line + i))) ∧
          gives t x.data)))) ∧
  (∀ (s : State) (key n i : Nat), s.bad = [] → i < n → byteAt (s.readNat key n) i = memGet s.mem (s.fwd (key + i))) ∧
  (∀ (s : State) (key n : Nat), s.readNat key n < 256 ^ n) ∧
  (∀ n x, n ≤ 8 → x < 256 ^ n → (extendLoad .zero n x).1.setWidth 64 = BitVec.ofNat 64 x) ∧
  ∀ n x, 0 < n → n ≤ 8 → x < 256 ^ n → (extendLoad .sign n x).1.setWidth 64 = (BitVec.ofNat (8 * n) x).signExtend 64

/-- R24: a result that returns is written to its register, with the flags its decoding raised; s0 discards. R121, R122: one whose error the
links have corrected is counted, and one that they have spoilt is zero, raises no flags, and counts its words.
R105, R197: a fetched block is then held at all three levels of instruction cache, with the bytes of its home, zeros where the path is lost
or a link has spoilt it (R122, R297). It is read when nothing is held at its channels that it would pass (R239, log 95). Its thread's
stall goes on until it has its words (R342). -/
def Obligations.Returns : Prop :=
  (∀ (s : State) (k : Nat) (w : Work) (dst : Dst) (v : VWord) (g : FFlags) (trans : List Trans),
    s.findWork k = some w → w.body = .ret dst v none g trans → w.slot < 16 →
    (s.threadAt w.core w.slot).pendTrap = none → (s.threadAt w.core w.slot).errTrap = none →
    (w.link = .corrupt → s.etrap w.core = false) →
    let old := s.threadAt w.core w.slot
    let spoilt := w.link = .corrupt
    let v := if spoilt then 0 else v
    let g := if spoilt then 0 else g
    let raised := { old with fflags := old.fflags ||| g, acquired := if w.acquire then s.tick else old.acquired }
    ∃ t, exec (.loadReturn k) s = .next t ∧ t.findWork k = none ∧ t.mem = s.mem ∧ (∀ c, c ≠ w.core → t.core c = s.core c) ∧
      (t.core w.core).corr = (if w.link = .corrected then min 0xFFFF ((s.core w.core).corr + 1) else (s.core w.core).corr) ∧
      (t.core w.core).unc = (if spoilt then min 0xFFFF ((s.core w.core).unc + dst.words) else (s.core w.core).unc) ∧
      (dst = .none ∨ dst = .dropped → t.threadAt w.core w.slot = raised) ∧
      (∀ r, dst = .s r → r ≠ 0 → t.threadAt w.core w.slot = { raised with s := vset old.s r (v.setWidth 64) }) ∧
      (∀ r, dst = .m r → r ≠ 0 → t.threadAt w.core w.slot = { raised with m := vset old.m r (v.setWidth 16) }) ∧
      (∀ r m, dst = .v r m → ∃ u, lanesAre u (vget old.v r 0) (BitVec.ofNat 16 m) (lane v) ∧
        t.threadAt w.core w.slot = { raised with v := vset old.v r u }) ∧
      ∀ q n, dst = .q q n → q < 8 → t.threadAt w.core w.slot = raised ∧
        (t.core w.core).queue q = ((s.core w.core).queue q).map
          (fun e => if e.num = n then { e with missing := e.missing - 1, val := e.val ||| v } else e)) ∧
  ∀ (s : State) (k key : Nat) (w : Work) (trans : List Trans),
    s.findWork k = some w → w.body = .fetch key trans → s.readTurn [(key, 64)] = true → w.link ≠ .corrected →
    let ok := s.arrives w.core w.home key = true ∧ w.link ≠ .corrupt
    let read := (s.touch key).applyNow [(key, 64)]
    let held := some (BitVec.ofNat 512 (if ok then read.readNat key 64 else 0))
    ∃ t, exec (.fetchReturn k) s = .next t ∧ t.findWork k = none ∧ (if ok then KeepsBytes read t else t.mem = s.mem) ∧
      heldBlock (t.core w.core).icache key = held ∧ heldBlock (t.cluster (clusterOf w.core)).icache key = held ∧
      heldBlock (t.die (dieOf w.core)).icache key = held ∧
      (¬ ok → (t.core w.core).unc = min 0xFFFF ((s.core w.core).unc + 8)) ∧
      (ok → s.regions = [] → t.threadAt w.core w.slot = s.threadAt w.core w.slot)

/-- R194, R250: a write-back writes the masked bytes of its sector at their home, and no other byte of memory.
R194, R195: an evicted sector leaves its cache; its masked bytes leave in a write-back, those of an uncorrectable word as zero. -/
def Obligations.WriteBacks : Prop :=
  (∀ (s : State) (k cl key : Nat) (w : Work) (data : VWord) (mask : BitVec 64) (writers : BitVec 16) (trans : List Trans),
    s.due k w → w.body = .writeBack cl key data mask writers trans → (s.arrive w).unheld w → s.pathLive w.home = true →
    ∃ t, exec (.writeBack k) s = .next t ∧ t.findWork k = none ∧ WritesBytes s t (s.fwd key) 64 data.toNat (spread mask).toNat) ∧
  ∀ (s : State) (cl key : Nat) (x : Sector), (s.cluster cl).sector key = some x →
    ∃ t, exec (.eviction cl key) s = .next t ∧ (t.cluster cl).sector key = none ∧ t.mem = s.mem ∧
      (x.mask = 0 → t.work = s.work) ∧
      (x.mask ≠ 0 → ∃ w, t.work = s.work ++ [w] ∧
        w.body = .writeBack cl x.key (x.data &&& ~~~(spread (s.dirtyErrors cl x &&& x.mask))) x.mask x.writers x.trans)

/-- R111, R144, R260, R122: a message whose conditions have come to hold is sent, behind all that was sent before; one that arrives
enters the mailbox, or waits at the core's input while the mailbox is full; a corrupted one is dropped, with the mailbox as it was, and
counted at its sender.
R143: the timeout of a parked mon.wait has been reached, and is reported when the wait goes on.
R133, R135: at a rotation boundary LOCK takes effect
and launched and resumed threads begin to compete. -/
def Obligations.MessagesAndCoreEvents : Prop :=
  ((∀ (s : State) (k dest : Nat) (w : Work) (m : Msg), s.findWork k = some w → w.body = .msg dest m → w.deps ≠ [] → w.flush = none →
    s.gone w.deps = true → s.mayBeSent w = true →
    exec (.messageArrival k) s = .next { s with work := s.work.filter (fun x => x.id != w.id) ++ [{ w with deps := [] }] }) ∧
  ∀ (s : State) (k dest : Nat) (w : Work) (m : Msg), s.lands k w → w.body = .msg dest m →
    let c := s.coreAt dest
    ∃ t, exec (.messageArrival k) s = .next t ∧ t.findWork k = none ∧ t.mem = s.mem ∧
      (w.link = .clean → (s.core c).inbox = [] → (s.core c).mailbox.length < 16 →
        (t.core c).mailbox = (s.core c).mailbox ++ [m] ∧ (t.core c).inbox = []) ∧
      (w.link = .clean → 16 ≤ (s.core c).mailbox.length →
        (t.core c).mailbox = (s.core c).mailbox ∧ (t.core c).inbox = (s.core c).inbox ++ [m]) ∧
      (w.link = .corrupt → (t.core w.core).dropm = min 0xFFFF ((s.core w.core).dropm + 1) ∧
        ∀ i, (t.core i).mailbox = (s.core i).mailbox ∧ (t.core i).inbox = (s.core i).inbox)) ∧
  (∀ (s : State) (core slot d : Nat), slot < 16 → (s.threadAt core slot).pend = .deadline d → d ≠ 0 →
    d ≤ (s.core core).clock → ((s.threadAt core slot).slot = .parked ∨ (s.threadAt core slot).slot = .ready) →
    (s.threadAt core slot).stopping = none →
    exec (.monitorTimeout core slot) s = .next (s.setThreadAt core slot { s.threadAt core slot with pend := .elapsed })) ∧
  ∀ (s : State) (core : Nat), (s.core core).boundary = true →
    ∃ t, exec (.rotationBoundary core) s = .next t ∧ (t.core core).boundary = false ∧ (t.core core).lockstep = (s.core core).lock ∧
      ∀ k, k < 16 → t.threadAt core k = if (s.threadAt core k).slot = .ready ∨ (s.threadAt core k).slot = .parked
        then { s.threadAt core k with competes := true } else s.threadAt core k

/-! ## Translations and caches -/

/-- R264, R268, R288: tlb.inv sends an invalidation to every holder and tlb.sync waits for them, both as fence.sys does; the
maintenance instructions write back, empty or drop the lines of their range, in the data caches of their partition's clusters, park
until what they wrote back has been performed, and check their range first. They act on what the translation of their range leaves, whose
walks may write sectors back and apply pairs (R196, R228); ic.inv drops too the block that a thread runs through (R198, log 112).
The grouping of the holders, a length of 0 and the clusters of a partition are the model's choices (log 40, 41, 72). -/
def Obligations.Maintenance : Prop :=
  ∀ (s : State) (a b c : Opd), s.placed → registers [a, b, c] →
    let p := s.thread.pend
    let base := s.scalar a
    let len := s.scalar b
    let read := s.maintained base.toNat len.toNat (len.toNat / 4096 + 2)
    let hit := coversBlock read.1
    let s' := read.2
    let fenced := (s.flushFor s.curCore 3).2.dropFills (clusterOf s.curCore)
    let still := p = .none ∧ s.releaseDeps 3 = [] ∧ (s.flushFor s.curCore 3).1 = []
    let mine := s.work.any (fun w => w.of s.curCore s.curSlot && (match w.body with | .inval .. => true | _ => false))
    let bad := base.toNat % 4096 ≠ 0 ∨ len.toNat % 4096 ≠ 0 ∨ len = 0 ∨ 2 ^ 56 < base.toNat + len.toNat
    let range := len ≠ 0 ∧ base.toNat / 2 ^ 56 ≠ 0xF0 ∧ base.toNat + len.toNat ≤ 2 ^ 56
    let calm := ∀ w ∈ s'.work, ∀ cl key data mask writers trans, w.body = .writeBack cl key data mask writers trans → hit key = false
    let w := fun i =>
      (∀ k ids, p = .wait k ids → (∀ d ∈ ids, s.findWork d = none) → Writes i s id) ∧
      (∀ k ids, p = .wait k ids → (∃ d ∈ ids, s.findWork d ≠ none) → Parks i s) ∧
      (p = .none → len = 0 → Writes i s id) ∧
      (p = .none → len ≠ 0 → base.toNat / 2 ^ 56 = 0xF0 → Traps i s 0x15 base 0) ∧
      (p = .none → len ≠ 0 → base.toNat / 2 ^ 56 ≠ 0xF0 → 2 ^ 56 < base.toNat + len.toNat → Traps i s 0x14 base 0)
    let cleans := fun i => p = .none → range → s'.dirtyBad = [] →
      ∀ cl x, s.clusterInPartition s.curCore cl = true → x ∈ (s'.cluster cl).sectors → hit x.key = true → x.mask ≠ 0 →
        ∃ t v, exec i s = .next t ∧ t.last = .parked ∧ t.mem = s'.mem ∧ v ∈ t.work ∧
          v.body = .writeBack cl x.key x.data x.mask x.writers x.trans
    (s.privileged = true →
      (bad → Traps (.tlbInv a b c) s 0x14 base 0) ∧
      (¬ bad → still → SendsFrom (.tlbInv a b c) s fenced (s.holders.map (fun h =>
        s.item 0 [] false (.inval h.1 h.2 ((s.scalar c).toNat % 2 ^ 16) base.toNat len.toNat []))) id) ∧
      (mine = true → Parks .tlbSync s) ∧ (mine = false → still → exec .tlbSync s = .next fenced.complete) ∧
      w (.dcInv a b) ∧
      (p = .none → range → calm → (∀ cl x, x ∈ (s'.cluster cl).sectors → x.key % 64 = 0) →
        ∃ t, exec (.dcInv a b) s = .next t ∧ t.last = .completed ∧ t.thread = s'.after ∧ t.mem = s'.mem ∧ t.work = s'.work ∧
          ∀ cl, (t.cluster cl).sectors =
            (s'.cluster cl).sectors.filter (fun x => !(s.clusterInPartition s.curCore cl && hit x.key)))) ∧
    w (.dcWb a b) ∧ w (.dcWbinv a b) ∧ w (.icInv a b) ∧ cleans (.dcWb a b) ∧ cleans (.dcWbinv a b) ∧
    (p = .none → range → calm → ∃ t, exec (.icInv a b) s = .next t ∧ t.last = .completed ∧ t.mem = s'.mem ∧
      t.thread = { s'.after with line := s'.thread.line.filter (fun x => !hit x.1) } ∧
      ∀ key, let held := fun (l : List (Nat × VWord)) => if hit key then none else heldBlock l key
        (∀ k, heldBlock (t.core k).icache key = held (s'.core k).icache) ∧
        (∀ k, heldBlock (t.cluster k).icache key = held (s'.cluster k).icache) ∧
        ∀ k, heldBlock (t.die k).icache key = held (s'.die k).icache)

/-! ## Tensors -/

/-- R12, R52, R77, R80-R92, R109, R234: a tensor instruction asks the controller of its handle's home and parks, once its thread's
earlier acquires have been performed; it completes once its command is positioned, with its result if it has one, and traps when it is
refused; a handle that is not live in its partition traps with 0x41. That a core lies in one partition is the model's choice (log 72).
R52, R53, R55, R73, R78-R86, R232-R234, R245: what the other tensor instructions check at issue, in order, and the command
that one which passes sends to the controller; operands are read at issue, in words without errors. -/
def Obligations.TensorInstructions : Prop :=
  (∀ (s : State) (a b c : Opd) (n : BitVec 6), s.placed → registers [a, b, c] →
    let p := s.thread.pend
    let ends := fun i (f : Word → Prop) =>
      (∀ v, p = .answered v → f v) ∧ (∀ e ta ti, p = .refused e ta ti → Traps i s e ta ti) ∧ (∀ k ids, p = .wait k ids → Parks i s)
    let result := fun i (v : Word) => Sends i s [s.returning (dstOf a) (v.setWidth 512)] id
    let done := fun i (_ : Word) => Writes i s id
    let asks := fun i (h : Word) (cmd : Nat → HandleCmd) => p = .none →
      (∀ u, s.tensor h.toNat = some u → u.freed = false → u.owner = s.partOf s.curCore →
        (s.acquiring = false → Asks i s s (s.command u.home (cmd u.handle) [])) ∧ (s.acquiring = true → Parks i s)) ∧
      ((s.tensor h.toNat).all (fun u => u.freed || u.owner != s.partOf s.curCore) = true → Traps i s 0x41 h 0)
    ends (.tNew a b) (result (.tNew a b)) ∧ ends (.upOpen a b) (result (.upOpen a b)) ∧
    ends (.tFree a) (done (.tFree a)) ∧ ends (.tLd a b) (done (.tLd a b)) ∧ ends (.tSt a b) (done (.tSt a b)) ∧
    ends (.tGat a b c) (done (.tGat a b c)) ∧ ends (.tPhr a b c) (done (.tPhr a b c)) ∧
    ends (.tQ a b n) (fun v => ∀ w h sel ops x, s.findWork v.toNat = some w → w.body = .handle (.q h sel none ops) x →
      ∃ t, exec (.tQ a b n) s = .next t ∧ t.last = .completed ∧ t.thread = s.after ∧ t.mem = s.mem ∧
        t.findWork v.toNat = some { w with body := .handle (.q h sel (some (dstOf a)) ops) x }) ∧
    asks (.tFree a) (s.scalar a) (fun h => .free h) ∧ asks (.tQ a b n) (s.scalar b) (fun h => .q h n.toNat none 0) ∧
    (s.privileged = true → ends (.tWiden a b c) (result (.tWiden a b c)) ∧
      (p = .none → bits (s.scalar c).toNat 63 13 ≠ 0 → Traps (.tWiden a b c) s 0x01 0 0) ∧
      (bits (s.scalar c).toNat 63 13 = 0 →
        asks (.tWiden a b c) (s.scalar b) (fun h => .widen h ((s.scalar c).toNat % 2 ^ 16) none)))) ∧
  ∀ (s : State) (a b c : Opd), s.placed → registers [a, b, c] → s.thread.pend = .none → s.bad = [] → s.soft = [] →
    let x := s.scalar a
    let y := s.scalar b
    let z := s.scalar c
    let row := fun i (ea : Word) (wins : Nat → Bool) (k : Prop) =>
      (∀ e, s.rowThree ea wins = some e → Traps i s e ea 0) ∧ (s.rowThree ea wins = none → k)
    let run := fun i (ea : Word) n beyond (k : Nat → Prop) =>
      (∀ e, s.rawRun ea n beyond = .error e → Traps i s e ea 0) ∧
      (∀ r, s.rawRun ea n beyond = .ok r → s.runReadable r = false → Parks i s) ∧ ∀ v, s.operandIs ea n beyond v → k v
    let live := fun i (h : Nat) (k : Tensor → Prop) =>
      ((s.tensor h).all (fun u => u.freed || u.owner != s.partOf s.curCore) = true → Traps i s 0x41 (BitVec.ofNat 64 h) 0) ∧
      ∀ u, s.tensor h = some u → u.freed = false → u.owner = s.partOf s.curCore → k u
    let view := fun i (ea : Word) (k : View → Tensor → Prop) => run i ea 64 0x43 (fun v => live i (v % 2 ^ 64) (fun u =>
      (ea.toNat % 64 ≠ 0 ∨ viewOf v u.desc.dims.length u.desc.fmt = none → Traps i s 0x43 ea 0) ∧
      ∀ w, ea.toNat % 64 = 0 → viewOf v u.desc.dims.length u.desc.fmt = some w → k w u))
    let moves := fun i (ea : Word) fmt n write (k : Run → Prop) =>
      (∀ e, s.transferRun ea fmt n write = .error e → Traps i s e ea 0) ∧ ∀ r, s.transferRun ea fmt n write = .ok r → k r
    row (.tNew a b) y rawWindows (run (.tNew a b) y 64 0x42 (fun v =>
      (y.toNat % 64 ≠ 0 ∨ descOf v y = none → Traps (.tNew a b) s 0x42 y 0) ∧
      ∀ d, y.toNat % 64 = 0 → descOf v y = some d → (incompatible d.ops = true → Traps (.tNew a b) s 0x44 y 0) ∧
        (incompatible d.ops = false → Asks (.tNew a b) s s (s.command (dieOf s.curCore) (.new d) [])))) ∧
    row (.tLd a b) x rawWindows (row (.tLd a b) y transferWindows (view (.tLd a b) x (fun v u =>
      moves (.tLd a b) y u.desc.fmt v.positions true (fun r => Asks (.tLd a b) s s (s.command u.home (.ld v r) (r.holds true)))))) ∧
    row (.tSt a b) x rawWindows (row (.tSt a b) y transferWindows (view (.tSt a b) x (fun v u =>
      moves (.tSt a b) y u.desc.fmt v.positions false (fun r =>
        (s.runReadable r.ranges = false → Parks (.tSt a b) s) ∧
        (s.runReadable r.ranges = true →
          Asks (.tSt a b) s s (s.command u.home (.st v r (s.readRun s.curCore r.ranges).1) [])))))) ∧
    row (.tGat a b c) y rawWindows (row (.tGat a b c) z transferWindows (live (.tGat a b c) x.toNat (fun u =>
      (y.toNat % 8 ≠ 0 → Traps (.tGat a b c) s 0x48 y 0) ∧
      (y.toNat % 8 = 0 → run (.tGat a b c) y 8 0x46 (fun hd =>
        let n := byteField hd 3 0
        let wide := byteField hd 7 7
        let size := if wide = 1 then 8 else 4
        let wrong := n = 0 ∨ 65536 < n ∨ byteField hd 6 4 ≠ 0 ∨ 1 < wide
        (wrong → Traps (.tGat a b c) s 0x48 y 0) ∧
        (¬ wrong → run (.tGat a b c) y (8 + n * size) 0x46 (fun l => moves (.tGat a b c) z u.desc.fmt n true (fun r =>
          Asks (.tGat a b c) s s (s.command u.home (.gat u.handle (unpackCodes (8 * size) (l / 2 ^ 64) n) r) (r.holds true)))))))))) ∧
    row (.tPhr a b c) y rawWindows (live (.tPhr a b c) x.toNat (fun u => run (.tPhr a b c) y 64 0x45 (fun v =>
      (y.toNat % 64 ≠ 0 ∨ phraseOf v = none → Traps (.tPhr a b c) s 0x45 y 0) ∧
      ∀ p, y.toNat % 64 = 0 → phraseOf v = some p →
        let first := bits z.toNat 63 40 * 65536
        let n := bits z.toNat 39 0
        let cmd : HandleCmd := .phr u.handle p first n
        let differs := fun q => (s.tensor q).any (fun t => t.desc.dims != u.desc.dims)
        (∀ q, cmd.handles.find? (fun q => !s.liveHandle s.curCore q) = some q → Traps (.tPhr a b c) s 0x41 (BitVec.ofNat 64 q) 0) ∧
        (cmd.handles.all (s.liveHandle s.curCore) = true → badRange u.desc first n = true → Traps (.tPhr a b c) s 0x46 z 0) ∧
        (cmd.handles.all (s.liveHandle s.curCore) = true → badRange u.desc first n = false →
          (∀ q, cmd.handles.find? differs = some q → Traps (.tPhr a b c) s 0x47 (BitVec.ofNat 64 q) 0) ∧
          (cmd.handles.find? differs = none → Asks (.tPhr a b c) s s (s.command u.home cmd [])))))) ∧
    ∀ v w u, s.blockIs y v → s.blockIs (BitVec.ofNat 64 (byteField v 55 48)) w → s.tensor (byteField v 7 0) = some u → u.freed = false →
      u.owner = s.partOf s.curCore →
      let i : Instr := .upOpen a b
      let first := byteField v 15 8
      let n := byteField v 23 16
      let p := (phraseOf w).bind (fun p => if p.nh = 2 ∧ p.h1 = 0 ∧ p.h2 = 0 then some p else none)
      let d : RegionDesc := ⟨u.handle, first, n, [], byteField v 35 32, byteField v 39 36, byteField v 40 40 == 1,
        p.getD ⟨[], 0, [], 0, 0⟩, [], y⟩
      let ok := regionOk v { u with frames := s.nextFrames u } = true ∧ ∀ r ∈ s.regions, r.desc.overlaps d = false
      let size := widthOf u.desc.fmt / 8
      let need : Need := { r := true, w := true }
      (¬ ok → Traps i s 0x46 y 0) ∧ (ok → s.opening d = true → Parks i s) ∧
      (ok → s.opening d = false → p = none → Traps i s 0x45 (BitVec.ofNat 64 (byteField v 55 48)) 0) ∧
      (ok → s.opening d = false → p ≠ none → u.ops.testBit 4 = false → Traps i s 0x40 (BitVec.ofNat 64 u.handle) 0x10) ∧
      (ok → s.opening d = false → p ≠ none → u.ops.testBit 4 = true → ∀ spill pages s1 s2,
        s.translateAll (byteField v 31 24) (16 * d.splen) need = (spill, s1) →
        (pages, s2) = (if u.rawPte = 0 then (.ok [], s1) else s1.translateAll (u.rawBase + first * size) (n * size) need) →
        (∀ e at_, s.dirtySoft = [] → s.parity = [] → bothRanges spill pages = .error (e, at_) → Traps i s e at_ 0) ∧
        ∀ l m, bothRanges spill pages = .ok (l, m) → Asks i s s2 (s2.command u.home
          (.upOpen { d with spill := lineKeys l, trans := (l ++ m).flatMap (·.trans) }) []))

/-- R12, R13, R52, R59, R71, R92: a command that arrives is refused where a handle is not live, and positioned where all is
well; positioned commands of a handle are performed in the order of their positions; a conversion changes the representation
and the frames, whose bytes hold nothing of an earlier tensor (R15), and returns the old frames.
A conversion is stated here in words without errors. New handles and frames, the partitions, and that cr.rquota.FRAMES wraps, are the
model's choices (logs 6, 9, 72, 70).
R12, R51-R53, R65, R79-R92, R157: the rest of what arrives at a controller and is performed there: t.new creates a tensor of zeros
under a handle that no tensor has, or answers 0, once no item in flight reaches the frames that it draws; a command without an operation
that it needs is refused with 0x40; t.ld and t.gat step the LFSR as they are positioned; elements are moved between the tensor and a run,
and a phrase is evaluated over its range, here for tensors whose elements the handle holds and formats without block scales; t.q returns
its value.
While a core that its run reaches is being moved, a command waits (R337). That t.new waits for the items in flight (log 94), and that the LFSR is stepped as a command is positioned (log 61), are the model's
choices. -/
def Obligations.TensorCommands : Prop :=
  (∀ (s : State) (k h : Nat) (w : Work) (asked : Option Nat), w.slot < 16 →
    let th := s.threadAt w.core w.slot
    let told := fun (t : State) (p : Pend) =>
      (∀ m ids, th.pend = .wait m ids → ids.contains k = true → t.threadAt w.core w.slot = { th with pend := p })
    let arrives := fun (f : State → Prop) => ∃ t, exec (.handleCommandArrival k) s = .next t ∧ t.mem = s.mem ∧ f t
    let ends := fun (f : State → Prop) => ∃ t, exec (.handleCommandCompletion k) s = .next t ∧ t.mem = s.mem ∧ t.findWork k = none ∧ f t
    (∀ cmd, s.due k w → w.body = .handle cmd asked → w.arrived = none → cmd.handles = [h] → s.liveHandle w.core h = false →
      arrives (fun t => t.findWork k = none ∧ told t (.refused 0x41 (BitVec.ofNat 64 h) 0))) ∧
    (∀ u, s.due k w → w.body = .handle (.free h) asked → w.arrived = none → s.tensor h = some u → u.freed = false →
      u.owner = s.partOf w.core →
      arrives (fun t => t.tensor h = some { u with freed := true } ∧ t.liveHandle w.core h = false ∧ told t (.answered 0) ∧
        t.findWork k = some { w with arrived := some s.tick, body := .handle (.free h) none })) ∧
    (∀ u sel, s.due k w → w.body = .handle (.q h sel none 0) asked → w.arrived = none → s.tensor h = some u → u.freed = false →
      u.owner = s.partOf w.core →
      arrives (fun t => told t (.answered (BitVec.ofNat 64 k)) ∧
        t.findWork k = some { w with arrived := some s.tick, body := .handle (.q h sel none u.ops) none })) ∧
    (∀ cmd, s.findWork k = some w → w.body = .handle cmd asked → s.first w = false →
      exec (.handleCommandCompletion k) s = .fault .noSuchEvent) ∧
    (∀ u, s.findWork k = some w → w.body = .handle (.free h) asked → s.first w = true → s.regions = [] → s.tensor h = some u →
      ends (fun t => t.tensor h = none ∧ t.freeFrames = s.freeFrames ++ u.frames ∧
        (t.partition u.owner).rquota = (s.partition u.owner).rquota + BitVec.ofNat 32 u.quota)) ∧
    (∀ ops, s.findWork k = some w → w.body = .handle (.widen h ops none) asked → s.first w = true → s.regions = [] →
      ends (fun t => t.tensors = s.tensors)) ∧
    ∀ u ops rep frames, s.findWork k = some w → w.body = .handle (.widen h ops (some (rep, frames, false))) asked →
      s.first w = true → s.tensor h = some u → u.rawPte = 0 → s.bad = [] → s.soft = [] → s.moved = [] → s.forwards = [] →
      ∃ t, exec (.wideningConversion k) s = .next t ∧ t.findWork k = none ∧
        (s.memOk → ∀ a, memGet t.mem a = if ∃ f ∈ frames, f ≤ a ∧ a < f + 4096 then memGet [] a else memGet s.mem a) ∧
        t.tensor h = some { u with rep := rep, frames := frames, quota := frames.length } ∧
        t.freeFrames = s.freeFrames ++ u.frames) ∧
  ∀ (s : State) (k h : Nat) (w : Work) (asked : Option Nat) (u : Tensor) (f : Fmt), w.slot < 16 → s.bad = [] → s.soft = [] →
    let th := s.threadAt w.core w.slot
    let told := fun (t : State) (p : Pend) =>
      (∀ m ids, th.pend = .wait m ids → ids.contains k = true → (t.threadAt w.core w.slot).pend = p)
    let comes := fun (cmd : HandleCmd) => s.due k w ∧ w.body = .handle cmd asked ∧ w.arrived = none
    let lives := fun (cmd : HandleCmd) => ∀ q ∈ cmd.handles, s.liveHandle w.core q = true
    let lacks := fun (cmd : HandleCmd) (p : Nat × Nat) => match s.tensor p.1 with
      | some t => needOn (s.needs cmd) p.1 &&& (0xFFFF - t.ops) != 0
      | none => true
    let positioned := fun (cmd : HandleCmd) (p : Option Pend) => ∃ t, exec (.handleCommandArrival k) s = .next t ∧ t.mem = s.mem ∧
      t.tensors = s.tensors ∧ t.findWork k = some { w with arrived := some s.tick, body := .handle cmd none } ∧
      (match p with | some p => told t p | none => t.threadAt w.core w.slot = th)
    let drawn := fun (r : Run) => match r.entry with
      | some (e, _) => if modeOf (entryOf e).rm = .sr then { r with draws := (srsDraws th.srs r.count).1 } else r
      | none => r
    let first := fun (cmd : HandleCmd) => s.findWork k = some w ∧ w.body = .handle cmd asked ∧ s.first w = true ∧ s.regions = [] ∧
      s.tensor h = some u ∧ fmtOf u.desc.fmt = some f ∧ familyOf u.desc.fmt = none ∧ u.rawPte = 0 ∧ th.pendTrap = none ∧ th.errTrap = none
    let ends := fun (P : State → Prop) => ∃ t, exec (.handleCommandCompletion k) s = .next t ∧ P t
    let code := fun (t : State) (i : Nat) => (t.tensor h).map (fun v => sget v.elems i 0)
    let others := fun (t : State) => ∀ q, q ≠ h → t.tensor q = s.tensor q
    let puts := fun (run : Run) (xs : List ElemRead) (t : State) =>
      let b := run.put u.desc.fmt xs
      t.findWork k = none ∧ t.tensors = s.tensors ∧ (t.threadAt w.core w.slot).fflags = th.fflags ||| b.2.2 ∧
      (s.moved = [] → s.forwards = [] → WritesRun s t run.ranges b.1 b.2.1)
    (∀ d, comes (.new d) → s.newTensor w.core th.asid.toNat d = none → exec (.handleCommandArrival k) s = .fault .noSuchEvent) ∧
    (∀ d, comes (.new d) → s.newTensor w.core th.asid.toNat d ≠ none → ∃ t, exec (.handleCommandArrival k) s = .next t ∧ t.findWork k = none ∧
      ((t.tensors = s.tensors ∧ told t (.answered 0)) ∨ ∃ v, t.tensors = v :: s.tensors ∧ v.handle ≠ 0 ∧ s.tensor v.handle = none ∧
        told t (.answered (BitVec.ofNat 64 v.handle)) ∧ v.desc = d ∧ v.ops = d.ops ∧ v.rep = chooser d.ops d.fmt ∧ v.elems = [] ∧
        v.owner = s.partOf w.core ∧ v.scales = [] ∧ v.sticky = 0 ∧ v.freed = false)) ∧
    (∀ cmd p, comes cmd → lives cmd → (s.needs cmd).find? (lacks cmd) = some p →
      ∃ t, exec (.handleCommandArrival k) s = .next t ∧ t.findWork k = none ∧ t.mem = s.mem ∧ t.tensors = s.tensors ∧
        told t (.refused 0x40 (BitVec.ofNat 64 p.1) (BitVec.ofNat 64 (needOn (s.needs cmd) p.1)))) ∧
    (∀ cmd, comes cmd → lives cmd → (s.needs cmd).all (fun p => !lacks cmd p) = true →
      (∀ v r, cmd = .ld v r → positioned (.ld v (drawn r)) (some (.answered 0))) ∧
      (∀ q l r, cmd = .gat q l r → positioned (.gat q l (drawn r)) (some (.answered 0))) ∧
      (∀ v r x, cmd = .st v r x → positioned cmd (some (.answered 0))) ∧
      (∀ q p i n, cmd = .phr q p i n → positioned cmd (some (.answered 0))) ∧ (∀ d, cmd = .upOpen d → positioned cmd none)) ∧
    (∀ v run, v.handle = h → first (.ld v run) → s.prior w run.ranges = false → s.holdsRanges w run.ranges = false →
      ends (puts run ((List.range v.positions).map (s.elemOf u v)))) ∧
    (∀ l run, first (.gat h l run) → s.prior w run.ranges = false → s.holdsRanges w run.ranges = false →
      ends (puts run (l.map (fun i => s.readElem u (min i (u.desc.count - 1)))))) ∧
    (∀ v run data, v.handle = h → first (.st v run data) → run.entry = none →
      let moved := v.sorted u.desc.dims (rawDecode u.desc.fmt data v.positions)
      ends (fun t => t.findWork k = none ∧ t.mem = s.mem ∧ others t ∧ t.threadAt w.core w.slot = th.addOob moved.2 ∧
        (∀ i, (∀ p ∈ moved.1, p.1 ≠ i) → code t i = code s i) ∧
        ∀ l i c r, moved.1 = l ++ (i, c) :: r → (∀ p ∈ r, p.1 ≠ i) → code t i = some c.1)) ∧
    (∀ p i n, first (.phr h p i n) →
      let value := fun j => p.eval f (fun q => match s.tensor ([h, p.h1, p.h2][q]?.getD 0) with
        | some v => s.elemV v j
        | none => .fin false 0 0 false)
      ends (fun t => t.findWork k = none ∧ t.mem = s.mem ∧ others t ∧
        (∀ j, j < i ∨ i + n ≤ j → code t j = code s j) ∧
        ∀ j, i ≤ j → j < i + n → code t j = some (Machine.round f .rne false 0 (f32 (value j).1)).1)) ∧
    (∀ sel d ops, first (.q h sel (some d) ops) →
      ends (fun t => t.mem = s.mem ∧ t.findWork k = some (w.back d (BitVec.ofNat 512 (u.query sel ops)) none 0 []))) ∧
    (∀ d, d.handle = h → first (.upOpen d) → ends (fun t => t.findWork k = none ∧ t.mem = s.mem ∧
      ((t.regions = [] ∧ told t (.answered 0)) ∨ ∃ r, t.regions = [r] ∧ r.sid ≠ 0 ∧ r.desc = d ∧ r.flushes = 0 ∧
        told t (.answered (BitVec.ofNat 64 r.sid)) ∧ r.shares.map (·.chan) = u.channels d.first d.count ∧
        ∀ x ∈ r.shares, x.state = .opened ∧ x.bins = [] ∧ x.log = 0 ∧ x.accepted = 0)))

/-! ## The matrix array -/

/-- R200-R207, R213, R214: the lease, and the commands that the array accepts: each takes the next number of the timeline, and
counts toward the 32 of its lease; a product whose first operand is a view asks its tensor's controller, and one of two global operands
traps at the lowest address that fails. -/
def Obligations.MatrixCommands : Prop :=
  ∀ (s : State) (a b : Opd) (tile : BitVec 6), s.placed → registers [a, b] →
    let t0 := s.thread
    let me := (s.curCore, s.curSlot)
    let cl := clusterOf s.curCore
    let ar := s.array s.curCore
    let own := ar.holder = some me
    let accepts := fun i (s' : State) (store : Bool) cmd holds (last : Option VWord) =>
      let x := s'.array s.curCore
      ∃ t, exec i s = .next t ∧ OnlyMyThread s' t ∧ t.thread = { s'.after with mxLast := x.accepted + 1 } ∧
        let item := s'.item (arrayHome cl) (s'.earlier (holdRanges holds) store) false (.mx cl (x.accepted + 1) cmd)
        let sent : State := { s' with work := s'.work ++ [{ item with id := s'.nextId, holds := holds }], nextId := s'.nextId + 1 }
        t = { sent with cores := t.cores, clusters := t.clusters, last := .completed } ∧
        (∀ c, c ≠ cl → t.cluster c = s'.cluster c) ∧
        let y : Array_ := { x with accepted := x.accepted + 1, used := x.used + 1, idle := 0 }
        t.array s.curCore = { y with nextCfg := last, holder := if 32 ≤ x.used + 1 then none else x.holder }
    let holds := fun i => (t0.pend = .none → ¬ own → t0.mxRevoked = false → Traps i s 0x68 0 0) ∧
      (t0.pend = .none → ¬ own → t0.mxRevoked = true → exec i s = .next ((s.setThread { t0 with mxRevoked := false }).trap 0x74 0))
    let block := fun (P : Nat → State → Prop) => ∀ acc x s', s.blockAt (s.scalar a) 64 = .ok acc → s.readNow acc = some (x, s') → P x s'
    let source := fun (s1 s2 : State) (ea : Word) form shape src =>
      (∃ key, form = OperandForm.scratch key ∧ src = MxSrc.memory [⟨key, seqBytes shape, .scratch, ea, []⟩] ∧ s2 = s1) ∨
      (∃ l, form = OperandForm.global ∧ s1.translateAll ea.toNat (seqBytes shape) { r := true } = (.ok l, s2) ∧ src = MxSrc.memory l)
    let product := fun i (sparse : Bool) =>
      holds i ∧ (∀ v, t0.pend = .answered v → Writes i s id) ∧ (∀ e ta ti, t0.pend = .refused e ta ti → Traps i s e ta ti) ∧
      (t0.pend = .none → own → ∀ c fa fb sa sb s1 s2, s.nextTileCfg = some c → sparse = (c.spn != 0) →
        s.operandForm (s.scalar a) (some c.shapeA) = .ok fa → s.operandForm (s.scalar b) (some c.shapeB) = .ok fb →
        source s s1 (s.scalar a) fa c.shapeA sa → source s1 s2 (s.scalar b) fb c.shapeB sb →
        accepts i s2 false (.mma sparse sa sb 0 tile.toNat) (sa.holds ++ sb.holds) ar.nextCfg) ∧
      (t0.pend = .none → own → ∀ c s1 s2 ra rb e at_, s.nextTileCfg = some c → sparse = (c.spn != 0) →
        s.operandForm (s.scalar a) (some c.shapeA) = .ok .global → s.operandForm (s.scalar b) (some c.shapeB) = .ok .global →
        s.translateAll (s.scalar a).toNat (seqBytes c.shapeA) { r := true } = (ra, s1) →
        s1.translateAll (s.scalar b).toNat (seqBytes c.shapeB) { r := true } = (rb, s2) →
        s.errorFree → bothRanges ra rb = .error (e, at_) → Traps i s e at_ 0) ∧
      (t0.pend = .none → own → s.bad = [] → s.soft = [] → ∀ c fb sb s2 x u v, s.nextTileCfg = some c → sparse = (c.spn != 0) →
        s.operandForm (s.scalar a) (some c.shapeA) = .ok .view → s.operandForm (s.scalar b) (some c.shapeB) = .ok fb →
        s.operandIs (s.scalar a) 64 0x43 x → s.tensor (x % 2 ^ 64) = some u → u.freed = false → u.owner = s.partOf s.curCore → (s.scalar a).toNat % 64 = 0 →
        viewOf x u.desc.dims.length u.desc.fmt = some v → v.n = [c.rows, c.k] → source s s2 (s.scalar b) fb c.shapeB sb →
        Asks i s s2 (s2.command u.home (.operand (some v) none (.mma sparse (.view none) sb 0 tile.toNat) sb.holds 0 none) []))
    let run := fun i (cmd : Run → MxCmd) (store : Bool) (s1 : Run → State) (r1 : Run → Run) =>
      let ea := s.scalar a
      holds i ∧ (own → ea.toNat / 2 ^ 56 = 0 → Traps i s 0x15 ea 0) ∧
      (own → ea.toNat / 2 ^ 56 ≠ 0 →
        (∀ e, s.place ea.toNat s.src.seg elementWindows = .error e → Traps i s e ea 0) ∧
        ∀ p, s.place ea.toNat s.src.seg elementWindows = .ok p →
          (s.nextTileCfg = none → Traps i s 0x69 0 0) ∧
          ∀ c, s.nextTileCfg = some c →
            (∀ e, s.windowRun ea (c.rows * c.cols) true store = .error e → Traps i s e ea 0) ∧
            ∀ r, s.windowRun ea (c.rows * c.cols) true store = .ok r →
              accepts i (s1 r) store (cmd (r1 r)) ((r1 r).holds store) ar.nextCfg)
    (own → Writes .mxLease s (fun t => { t with mxRevoked := false })) ∧
    (ar.holder = none → ar.waiting = [] → ∃ t, exec .mxLease s = .next t ∧ t.last = .completed ∧ t.mem = s.mem ∧
      t.thread = { s.after with mxLast := 0, mxRevoked := false } ∧
      t.array s.curCore = { ar with holder := some me, used := 0, idle := 0, prev := some s.curCore }) ∧
    (ar.holder ≠ none → ¬ own → ar.waiting.contains me = false → ∃ t, exec .mxLease s = .next t ∧ t.last = .parked ∧
      t.array s.curCore = { ar with waiting := ar.waiting ++ [me] }) ∧
    (∃ t, exec (.mxFree a) s = .next t ∧ t.last = .completed ∧ t.mem = s.mem ∧ t.thread = { s.after with mxRevoked := false } ∧
      t.work = s.work ++ [{ s.returning (dstOf a) ((BitVec.ofNat 64 t0.mxLast).setWidth 512) with id := s.nextId }] ∧
      t.array s.curCore = { ar with holder := if own then none else ar.holder }) ∧
    holds (.mxCfg a) ∧
    (own → block (fun x s' => let v := BitVec.ofNat 512 x
      (cfgOf v ≠ none → accepts (.mxCfg a) s' false (.cfg v) [] (some v)) ∧ (cfgOf v = none → s.bad = [] → s.soft = [] → Traps (.mxCfg a) s 0x69 (s.scalar a) 0))) ∧
    product (.mxMma a b tile) false ∧ product (.mxSp a b tile) true ∧
    holds (.mxZero tile) ∧ (own → s.nextTileCfg ≠ none → accepts (.mxZero tile) s false (.zero tile.toNat) [] ar.nextCfg) ∧
    (own → s.nextTileCfg = none → Traps (.mxZero tile) s 0x69 0 0) ∧
    run (.mxLd a tile) (fun r => .ld r tile.toNat) false (fun _ => s) id ∧
    run (.mxSt a tile) (fun r => .st r tile.toNat) true (fun r => (s.drawRun r).2) (fun r => (s.drawRun r).1)

/-- R163, R200-R204, R208, R212, R214: a free array goes to its next requester; the watchdog revokes a lease; commands take effect in
order of acceptance, and a new configuration clears every tile; a product is added to its tile, whose flags are kept; a tile is
loaded from a run, and stored to one, with the flags of its products; operands are in scratchpad or encoded
already, in words without errors. -/
def Obligations.ArrayEvents : Prop :=
  (∀ (s : State) (cl c slot : Nat), (s.cluster cl).array.holder = none → (s.cluster cl).array.nextHolder = some (c, slot) →
    clusterOf c = cl → slot < 16 →
    ∃ t, exec (.leaseGrant cl) s = .next t ∧ t.mem = s.mem ∧ (t.cluster cl).array.holder = some (c, slot) ∧
      (t.cluster cl).array.used = 0 ∧ (t.cluster cl).array.waiting = (s.cluster cl).array.waiting.filter (· != (c, slot)) ∧
      t.threadAt c slot = { s.threadAt c slot with mxLast := 0, mxRevoked := false }) ∧
  (∀ (s : State) (cl c slot : Nat), (s.cluster cl).array.holder = some (c, slot) → (s.cluster cl).array.limit ≠ 0 → slot < 16 →
    (s.cluster cl).array.limit.toNat ≤ (s.cluster cl).array.idle →
    ∃ t, exec (.leaseWatchdogExpiry cl) s = .next t ∧ t.mem = s.mem ∧
      (t.cluster cl).array = { (s.cluster cl).array with holder := none, idle := 0 } ∧
      t.threadAt c slot = { s.threadAt c slot with mxRevoked := true }) ∧
  ∀ (s : State) (k cl n : Nat) (w : Work) (cmd : MxCmd), s.due k w → w.body = .mx cl n cmd → clusterOf w.core = cl →
    (s.arrive w).unheld w → (∀ a ∈ cmd.memory, a.via = .scratch ∧ isScratch a.key = true) → s.holdsRanges w cmd.ranges = false →
    let ar := (s.cluster cl).array
    let sound := s.bad = [] ∧ s.soft = []
    let blocks := fun shape (x : MxSrc) => (s.mxBlocks w shape x).1
    let flags := fun (t : State) (g : FFlags) => (t.threadAt w.core w.slot).fflags = (s.threadAt w.core w.slot).fflags ||| g
    let takes := fun (x : Array_) => ∃ t, exec (.arrayCommandCompletion k) s = .next t ∧ t.findWork k = none ∧ t.mem = s.mem ∧
      (t.cluster cl).array = x
    (n ≠ ar.done + 1 → exec (.arrayCommandCompletion k) s = .fault .noSuchEvent) ∧
    (∀ x, n = ar.done + 1 → cmd = .cfg x → ar.cfg = some x → takes { ar with done := n }) ∧
    (∀ x, n = ar.done + 1 → cmd = .cfg x → ar.cfg ≠ some x →
      takes { ar with done := n, cfg := some x, tiles := Vector.replicate 4 [], flags := Vector.replicate 4 0 }) ∧
    (∀ i c, n = ar.done + 1 → cmd = .zero i → ar.tileCfg = some c →
      takes { ar with done := n, tiles := vset ar.tiles i [], flags := vset ar.flags i 0 }) ∧
    (∀ sparse x y g i c, sound → n = ar.done + 1 → cmd = .mma sparse x y g i → cmd.fetched = true → ar.tileCfg = some c →
      let p := product c ((blocks c.shapeA x).map (fun z => planeOfNat z c.la c.pa))
        ((blocks c.shapeB y).map (fun z => if sparse then sparseOfNat z c.spn c.pb else planeOfNat z c.lb c.pb)) (vget ar.tiles i [])
      takes { ar with done := n, tiles := vset ar.tiles i p.1, flags := vset ar.flags i (vget ar.flags i 0 ||| g ||| p.2) }) ∧
    (∀ run i c, sound → n = ar.done + 1 → cmd = .ld run i → ar.tileCfg = some c → w.slot < 16 →
      let r := roundAll fp32 .rne false [] (run.decode (s.readRun w.core run.ranges).1)
      ∃ t tile, exec (.arrayCommandCompletion k) s = .next t ∧ t.findWork k = none ∧ t.mem = s.mem ∧ flags t r.2 ∧
        (∀ j, sget tile j 0 = (BitVec.ofNat 32 (r.1.getD j 0) : Lane)) ∧
        (t.cluster cl).array = { ar with done := n, tiles := vset ar.tiles i tile, flags := vset ar.flags i 0 }) ∧
    (∀ run i c, sound → n = ar.done + 1 → cmd = .st run i → ar.tileCfg = some c → w.slot < 16 → s.moved = [] → s.forwards = [] →
      let b := run.encode ((List.range (c.rows * c.cols)).map (fun j => f32 (sget (vget ar.tiles i []) j 0)))
      ∃ t, exec (.arrayCommandCompletion k) s = .next t ∧ t.findWork k = none ∧ flags t (b.2.2 ||| vget ar.flags i 0) ∧
        WritesRun s t run.ranges b.1 b.2.1 ∧ (t.cluster cl).array = { ar with done := n })

/-! ## Bank units -/

/-- R215-R217, R221: a bank command that passes its checks is accepted by its bank, and holds the thread's later accesses to
it; its checks and their causes.
R217-R220, R222: a bank command reads its source line by line, up to the line that it is at, or whole for bk.sum and bk.osm; its
last access of D performs it, and its flags reach its thread: a lane-by-lane command combines every lane of a line of D; bk.cvt writes the
bytes that fall to one line of D of the streams of sixteen elements that its source lines narrow to (log 111); bk.sum and bk.osm replace the number, or the pair, at D. No other byte of memory changes.
The last three in words without errors. -/
def Obligations.BankUnits : Prop :=
  (∀ (s : State) (a b c : Opd), s.placed → registers [a, b, c] →
    let da := s.scalar a
    let xa := s.scalar b
    let ctl := (s.scalar c).toNat
    let n := ctl % 256 + 1
    let scal := ctl.testBit 8
    let fmt := bits ctl 23 16
    let w := fun i (fn align : Nat) =>
      let size := bankWrites fn fmt n
      (ctlOk fn ctl = false → Traps i s 0x01 0 0) ∧
      (ctlOk fn ctl = true → ∀ e, s.bankAddress da align = .error e → Traps i s e da 0) ∧
      (ctlOk fn ctl = true → ∀ d e, s.bankAddress da align = .ok d → scal = false → s.bankAddress xa 64 = .error e → Traps i s e xa 0) ∧
      ∀ d x, ctlOk fn ctl = true → s.bankAddress da align = .ok d → (if scal then x = 0 else s.bankAddress xa 64 = .ok x) →
        let bank := d / 2 ^ 14
        let inside := (d + size - 1) / 2 ^ 14 = bank ∧ (scal = false → x / 2 ^ 14 = bank ∧ (x + 64 * n - 1) / 2 ^ 14 = bank)
        let free := s.arrayWrites d size = false ∧ (scal = false → s.arrayWrites x (64 * n) = false) ∧
          (s.work.filter (fun w => match w.body with | .bank _ e .. => e / 2 ^ 14 == bank | _ => false)).length < 8
        (¬ inside → Traps i s 0x6D da 0) ∧
        (inside → free → ∃ t, exec i s = .next t ∧ t.last = .completed ∧ t.thread = s.after ∧ t.mem = s.mem ∧
          (∀ k, k ≠ s.curCore → t.core k = s.core k) ∧ t.clusters = s.clusters ∧
          let body : Body := .bank fn d (if scal then none else some x) (xa.setWidth 32) (BitVec.ofNat 32 (bits ctl 63 32)) n fmt
            (ctl.testBit 9) [] 0 0
          let item := s.item (s.homeOf s.curCore d) [] false body
          t.work = s.work ++ [{ item with id := s.nextId, holds := [(bank * 2 ^ 14, 2 ^ 14, true)] }])
    w (.bkAdd a b c) 0 64 ∧ w (.bkMul a b c) 1 64 ∧ w (.bkFma a b c) 2 64 ∧ w (.bkMax a b c) 3 64 ∧ w (.bkMin a b c) 4 64 ∧
    w (.bkFill a b c) 5 64 ∧ w (.bkCvt a b c) 6 4 ∧ w (.bkSum a b c) 7 4 ∧ w (.bkOsm a b c) 8 8) ∧
  ∀ (s : State) (k fn d fmt n line : Nat) (x : Option Nat) (w : Work) (v y : Lane) (sat : Bool) (got : List VWord) (g : FFlags),
    s.findWork k = some w → w.body = .bank fn d x v y n fmt sat got line g → s.bankFirst w d = true → w.slot < 16 →
    let key := d + 64 * line
    let old := BitVec.ofNat 512 (s.readNat key 64)
    let src := fun i => match x with | none => v | some _ => lane (got[line]?.getD 0) i
    let each := fun i z => match fn with
      | 0 => rneF32 (addV .rne (f32 z) (f32 (src i))) | 1 => rneF32 (mulV (f32 z) (f32 (src i)))
      | 2 => if x.isNone then rneF32 (fmaV .rne (f32 z) (f32 v) (f32 y)) else rneF32 (fmaV .rne (f32 (src i)) (f32 y) (f32 z))
      | 3 => minmax true z (src i) | 4 => minmax false z (src i) | _ => (src i, 0)
    let still := s.bad = [] ∧ s.soft = [] ∧ s.moved = [] ∧ s.forwards = []
    let ends := fun (h : FFlags) (P : State → Prop) => ∃ t, exec (.bankCommandPerformed k) s = .next t ∧ t.findWork k = none ∧
      (t.threadAt w.core w.slot).fflags = (s.threadAt w.core w.slot).fflags ||| (g ||| h) ∧ P t
    let m := 2 * widthOf fmt
    let start := (d / 64 + line) * 64
    let lo := max d start - d
    let hi := min (m * n) (start + 64 - d)
    let reads := if 7 ≤ fn then got.length < n else if fn = 6 then m * got.length < hi else got.length ≤ line
    (∀ z, x = some z → reads → ∃ t, exec (.bankCommandPerformed k) s = .next t ∧ KeepsBytes s t ∧
      t.findWork k = some { w with body := .bank fn d x v y n fmt sat (got ++ [BitVec.ofNat 512 (s.readNat (z + 64 * got.length) 64)]) line g }) ∧
    (fn ≤ 5 → line + 1 = n → (x = none ∨ line < got.length) →
      ends (flagsOf (BitVec.allOnes 16) (fun i => (each i (lane old i)).2)) (fun t =>
        ∃ r, WritesBytes s t (s.fwd key) 64 r (2 ^ 512 - 1) ∧ ∀ i, i < 16 → r / 2 ^ (32 * i) % 2 ^ 32 = (each i (lane old i)).1.toNat)) ∧
    (∀ f z, still → fn = 6 → x = some z → fmtOf fmt = some f → ¬ reads → lo < hi →
      let stream := fun j => roundAll f .rne sat [] ((List.range 16).map (fun i => f32 (lane (got[j]?.getD 0) i)))
      let h := (((List.range ((hi + m - 1) / m)).drop (lo / m)).map (fun j => (stream j).2)).foldl (· ||| ·) 0
      let wrote := fun (t : State) => ∃ r, WritesBytes s t (d + lo) (hi - lo) r (2 ^ (8 * (hi - lo)) - 1) ∧
        ∀ i, lo ≤ i → i < hi → byteAt r (i - lo) = byteAt (packCodes (widthOf fmt) (stream (i / m)).1) (i % m)
      (hi = m * n → ends h wrote) ∧
      (hi ≠ m * n → ∃ t, exec (.bankCommandPerformed k) s = .next t ∧ wrote t ∧
        t.findWork k = some { w with body := .bank fn d x v y n fmt sat got (line + 1) (g ||| h) })) ∧
    (still → fn = 7 → got.length = n →
      let b := bankSum (BitVec.ofNat 32 (s.readNat d 4)) got
      ends b.2 (fun t => WritesBytes s t d 4 b.1.toNat (2 ^ 32 - 1))) ∧
    (still → fn = 8 → got.length = n →
      let b := bankOsm (BitVec.ofNat 32 (s.readNat d 4)) (BitVec.ofNat 32 (s.readNat (d + 4) 4)) got
      (b.1 = none → ends b.2 (fun t => t.mem = s.mem)) ∧
      ∀ m z, b.1 = some (m, z) → ends b.2 (fun t => WritesBytes s t d 8 (m.toNat + z.toNat * 2 ^ 32) (2 ^ 64 - 1)))

/-! ## Update streams -/

/-- R226, R229, R235, R236, R241-R243: the stream instructions: pairs go to their elements' channels with the core's sequence
numbers, unless a channel holds its emitters back; a flush and a query to every channel of the region; a close parks until every
channel has closed. That a path holds a number of items, and the partitions, are the model's choice (log 72, 73).
R226, R227, R237-R239, R241, R242, R244: a pair that nothing precedes is accepted while the region is open, and dropped and counted
where there is none or a link has spoilt it: an ordered region keeps it as it is; an unordered one rounds the first pair of an element to
the element format and combines the later ones into it; where the bin is full it is written to the log in the home's memory, and a full
log begins an application and holds it. A flush and a close begin an application; when it ends the pair of an element, from the bin or
from a record, has been combined into it, the record is zero, the share holds no pair and is open again, or closed for good; flushes count
at a channel in the order of their numbers.
When an application is counted is the model's reading (log 13). -/
def Obligations.UpdateStreams : Prop :=
  (∀ (s : State) (a b c : Opd) (q : BitVec 6), s.placed → registers [a, b, c] →
    let sid := (s.scalar a).toNat
    let key := (s.scalar b).toNat
    let seq := sget s.me.emitSeq sid 0
    let emits := fun i (resv n : Nat) (val : Nat → Lane) =>
      (s.regionFor s.curCore sid = none → Traps i s 0x58 (s.scalar a) 0) ∧
      ∀ r u, s.regionFor s.curCore sid = some r → s.tensor r.desc.handle = some u →
        let first := key % 2 ^ 48
        let wrong := resv ≠ 0 ∨ first < r.desc.first ∨ r.desc.first + r.desc.count < first + n ∨ 2 ^ 32 < seq + n
        let held := ∃ j, j < n ∧ s.emitterWaits (u.channel (first + j)) = true
        (wrong → Traps i s 0x59 (s.scalar b) 0) ∧ (¬ wrong → held → Parks i s) ∧
        (¬ wrong → ¬ held → ∃ t, exec i s = .next t ∧ t.last = .completed ∧ t.thread = s.after ∧ t.mem = s.mem ∧ t.regions = s.regions ∧
          sget t.me.emitSeq sid 0 = seq + n ∧
          t.work = s.work ++ numbered s.nextId ((List.range n).map (fun j => s.item (channelHome (u.channel (first + j))) [] false
            (.pair sid (u.channel (first + j)) (first + j) (val j) (s.curCore % 2048) (seq + j)))))
    let on := (s.scalar b).toNat
    let p := s.thread.pend
    emits (.upEmit a b c) (bits key 63 48) 1 (fun _ => (s.scalar c).setWidth 32) ∧
    (s.provides [c] → emits (.upEmitv a b c) (bits key 63 52) (bits key 51 48 + 1) (fun j => lane (s.vector c) j)) ∧
    (s.regionFor s.curCore on = none → Traps (.upFlush a b) s 0x58 (s.scalar b) 0 ∧ Traps (.upSt a b q) s 0x58 (s.scalar b) 0) ∧
    (∀ r, s.regionFor s.curCore on = some r →
      (∃ t, exec (.upFlush a b) s = .next t ∧ t.last = .completed ∧ t.thread = s.after ∧ t.mem = s.mem ∧
        t.region on = some { r with flushes := r.flushes + 1 } ∧
        t.work = s.work ++ numbered s.nextId (r.shares.map (fun x =>
          s.item (channelHome x.chan) [] false (.flush r.sid x.chan (r.flushes + 1) (dstOf a))))) ∧
      Sends (.upSt a b q) s (r.shares.map (fun x =>
        s.item (channelHome x.chan) [] false (.upQuery r.sid x.chan q.toNat s.nextId 0 (dstOf a)))) id) ∧
    (p = .none → s.regionFor s.curCore sid = none → Traps (.upClose a) s 0x58 (s.scalar a) 0) ∧
    (p = .none → ∀ r, s.regionFor s.curCore sid = some r → ∃ t, exec (.upClose a) s = .next t ∧ t.last = .parked ∧ t.mem = s.mem ∧
      t.thread.pend = .wait 91 ((List.range r.shares.length).map (fun j => s.nextId + j)) ∧
      t.work = s.work ++ numbered s.nextId (r.shares.map (fun x => s.item (channelHome x.chan) [] false (.close r.sid x.chan)))) ∧
    (∀ m ids, p = .wait m ids → (∀ d ∈ ids, s.findWork d = none) → Writes (.upClose a) s id) ∧
    (∀ m ids, p = .wait m ids → (∃ d ∈ ids, s.findWork d ≠ none) → Parks (.upClose a) s)) ∧
  ∀ (s : State) (k sid chan : Nat) (w : Work),
    let at_ := fun (t : State) (P : Share → Prop) => ∃ r x, t.region sid = some r ∧ r.share chan = some x ∧ P x
    let foremost := fun r x => (s.arrive w).ahead w r x = false
    (∀ elem val src seq, s.lands k w → w.link ≠ .corrected → w.body = .pair sid chan elem val src seq → w.link = .corrupt ∨ s.region sid = none →
      ∃ t, exec (.pairArrival k) s = .next t ∧ t.findWork k = none ∧ t.mem = s.mem ∧
        (t.core w.core).dropp = min 0xFFFF ((s.core w.core).dropp + 1)) ∧
    (∀ elem val src seq r x u f, s.due k w → w.body = .pair sid chan elem val src seq → s.region sid = some r → r.share chan = some x →
      s.tensor r.desc.handle = some u → fmtOf u.desc.fmt = some f → x.state = .opened → foremost r x →
      let comes := fun (P : State → Prop) => ∃ t, exec (.pairArrival k) s = .next t ∧ P t
      let taken := fun (y : Share) (g : FFlags) => comes (fun t => t.findWork k = none ∧ t.mem = s.mem ∧ at_ t (fun z => z = y) ∧
        (t.tensor r.desc.handle).map (·.sticky) = some (u.sticky ||| g))
      let joins := fun (v : Lane) (g : FFlags) => taken { x with
        accepted := x.accepted + 1, bins := x.bins ++ [⟨elem, v, src, seq, 1, false, false⟩], since := if x.pending then x.since else s.tick } g
      let apart := r.desc.ordered = true ∨ ∀ e ∈ x.bins, e.elem ≠ elem
      let rounded := Machine.round f .rne false 0 (f32 val)
      (r.desc.ordered = true → x.bins.length < r.desc.quota → joins val 0) ∧
      (r.desc.ordered = false → apart → x.bins.length < r.desc.quota → joins (BitVec.ofNat 32 rounded.1) rounded.2) ∧
      (∀ e, r.desc.ordered = false → x.bins.find? (fun e => e.elem == elem) = some e →
        let c := r.desc.phrase.combine f (decode f e.val.toNat) (f32 val)
        taken { x with accepted := x.accepted + 1, bins := x.bins.map (fun y =>
          if y.elem = elem then { y with val := BitVec.ofNat 32 c.1, pairs := y.pairs + 1 } else y) } c.2) ∧
      (apart → r.desc.quota ≤ x.bins.length → x.log + 1 < x.recCount →
        let key := r.recordKey (x.recFirst + x.log)
        comes (fun t => t.findWork k = none ∧
          at_ t (fun z => z = { x with accepted := x.accepted + 1, spilled := x.spilled + 1, log := x.log + 1 }) ∧
          (s.moved = [] → s.forwards = [] → key % 64 + 16 ≤ 64 → WritesBytes s t key 16
            (val.toNat + (elem - r.desc.first) % 2 ^ 32 * 2 ^ 32 + seq % 2 ^ 32 * 2 ^ 64 + (src % 2 ^ 11 + 2 ^ 31) * 2 ^ 96) (2 ^ 128 - 1)))) ∧
      (apart → r.desc.quota ≤ x.bins.length → x.recCount ≤ x.log + 1 → w.arrived = none →
        comes (fun t => t.mem = s.mem ∧ t.findWork k = some { w with arrived := some s.tick } ∧
          at_ t (fun z => z.state = .applying ∧ z.full = true ∧ z.bins = x.bins ∧ z.log = x.log ∧ z.accepted = x.accepted)))) ∧
    (∀ num dst r x, s.due k w → w.body = .flush sid chan num dst → s.region sid = some r → r.share chan = some x → x.state = .opened →
      foremost r x →
      ∃ t, exec (.flushArrival k) s = .next t ∧ t.mem = s.mem ∧ (x.pending = true → at_ t (fun y => y.state = .applying)) ∧
        (x.pending = false → at_ t (fun y => y = x.flushesDone [num])) ∧
        ((∀ y ∈ s.work, ∀ j m d, y.body = .flush sid j m d → y.id = k ∨ m ≠ num) →
          t.findWork k = some (w.back dst (BitVec.ofNat 512 num) none 0 []))) ∧
    (∀ (x : Share) num, num = x.flushed + 1 → x.early = [] → (x.flushesDone [num]).flushed = num ∧ (x.flushesDone [num]).early = []) ∧
    (∀ (x : Share) num, x.flushed + 1 < num → x.early = [] → (x.flushesDone [num]).flushed = x.flushed ∧ (x.flushesDone [num]).early = [num]) ∧
    (∀ r x, s.due k w → w.body = .close sid chan → w.arrived = none → s.region sid = some r → r.share chan = some x → x.state = .opened →
      foremost r x → ∃ t, exec (.closeArrival k) s = .next t ∧ t.mem = s.mem ∧ at_ t (fun y => y.state = .closing) ∧
        t.findWork k = some { w with arrived := some s.tick }) ∧
    (∀ r x, s.region sid = some r → r.share chan = some x → x.state = .applying → ∃ t, exec (.applicationEnd sid chan) s = .next t ∧
      at_ t (fun y => y.state = .opened ∧ y.bins = [] ∧ y.log = 0 ∧ y.accepted = x.accepted ∧ y.flushing = [] ∧
        y.flushed = (x.flushesDone x.flushing).flushed)) ∧
    (∀ r x u f, s.region sid = some r → r.share chan = some x → x.state = .applying → s.tensor r.desc.handle = some u → u.rawPte = 0 →
      familyOf u.desc.fmt = none → fmtOf u.desc.fmt = some f →
      let ends := fun (P : State → Prop) => ∃ t, exec (.applicationEnd sid chan) s = .next t ∧ P t
      let combined := fun (t : State) (i : Nat) (v : Val) => (t.tensor r.desc.handle).map (fun v => sget v.elems i 0) =
        some (r.desc.phrase.combine f (decode f (sget u.elems i 0)) v).1
      (∀ e, x.bins = [e] → x.log = 0 → e.bad = false →
        ends (fun t => t.mem = s.mem ∧ combined t e.elem (if r.desc.ordered then f32 e.val else decode f e.val.toNat))) ∧
      let key := r.recordKey x.recFirst
      let rec_ := s.readNat key 16
      (x.bins = [] → x.log = 1 → s.bad = [] → s.moved = [] → s.forwards = [] → key % 64 + 16 ≤ 64 → rec_.testBit 127 = true →
        bits rec_ 63 32 < r.desc.count →
        ends (fun t => combined t (r.desc.first + bits rec_ 63 32) (f32 (BitVec.ofNat 32 rec_)) ∧ WritesBytes s t key 16 0 (2 ^ 128 - 1)))) ∧
    ∀ r x, s.region sid = some r → r.shares = [x] → x.chan = chan → x.state = .closing →
      ∃ t, exec (.applicationEnd sid chan) s = .next t ∧ t.region sid = none

/-! ## Copies, tags and timelines -/

/-- R269-R271, R282-R286: a copy reads its descriptor at issue, parks while its tag is clear, and else clears the tag and hands
the copy to its context, or asks both handles' controllers, which position it and clear its tag, or refuse it; a granule that its
context moves is read, then written, uncorrectable words as zero with STATUS 0x73 and their lowest address in FADDR (R122); a copy ends
with its action, which resolves a future, takes its bytes off a barrier, or sends a message, then its STATUS and FADDR, and its tag.
What a copy with several faults reports, and the partitions, are the model's choice (log 27, 72). -/
def Obligations.Copies : Prop :=
  (∀ (s : State) (a : Opd) (ctx tag : BitVec 6), s.placed → registers [a] →
    let p := s.thread.pend
    let ea := s.scalar a
    let cpt : Instr := .cpT a ctx tag
    let copies := fun i kind (plan : Nat → CopyPlan) => p = .none →
      (∀ e, s.blockAt ea 64 = .error e → Traps i s 0x6A ea 0) ∧
      ∀ acc x s', s.blockAt ea 64 = .ok acc → s.readNow acc = some (x, s') →
        let q := plan x
        let wrong := q.reserved = false ∨ q.len = 0 ∨ q.rows = 0 ∨ 3 < q.act ∨ s'.sideOk q.src q.sstride q.len q.rows = false ∨
          s'.sideOk q.dst q.dstride q.len q.rows = false ∨ s'.actionTarget q.act q.atgt = none
        (wrong → s.bad = [] → s.soft = [] → Traps i s 0x6A ea 0) ∧
        (¬ wrong → s.tagSet tag.toNat = false → ∃ t, exec i s = .next t ∧ t.last = .parked ∧ KeepsBytes s t ∧ t.work = s.work ∧
          t.thread.pend = .item (x + 2 ^ 512 * ea.toNat)) ∧
        (¬ wrong → s.tagSet tag.toNat = true → s.walksClear → ∃ t w j, exec i s = .next t ∧ t.last = .completed ∧ t.thread = s'.after ∧
          KeepsBytes s t ∧ t.me.tags = s.me.tags &&& ~~~((1 : Word) <<< tag.toNat) ∧ t.work = s.work ++ [w] ∧ w.body = .copy j ∧
          j.kind = kind ∧ j.ctx = ctx.toNat ∧ j.num = (vget s.me.copies ctx.toNat {}).issued + 1 ∧ j.bytes = q.len * q.rows ∧
          j.tag = tag.toNat ∧ j.desc = ea ∧ j.act = q.act ∧ j.status = acc.key + (if kind = .linear then 40 else 48) ∧
          j.faddr = some (j.status + 8))
    copies (.cp a ctx tag) .linear planLinear ∧ copies (.cp2d a ctx tag) .strided planStrided ∧
    (∀ v, p = .answered v → Writes cpt s id) ∧ (∀ m ids, p = .wait m ids → Parks cpt s) ∧
    (∀ e ta ti, p = .refused e ta ti → Traps cpt s e ta ti) ∧
    (p = .none → ∀ e, s.blockAt ea 64 = .error e → Traps cpt s 0x6A ea 0) ∧
    (p = .none → s.bad = [] → s.soft = [] → ∀ x, s.blockIs ea x →
      let sv : Word := BitVec.ofNat 64 (byteField x 7 0)
      let dv : Word := BitVec.ofNat 64 (byteField x 15 8)
      let act := byteField x 16 16
      let atgt : Word := BitVec.ofNat 64 (byteField x 31 24)
      let wrong := byteField x 23 17 ≠ 0 ∨ byteField x 63 40 ≠ 0 ∨ 3 < act ∨ s.actionTarget act atgt = none
      let view := fun (va : Word) (v : View) (u : Tensor) => s.rowThree va rawWindows = none ∧ va.toNat % 64 = 0 ∧
        ∃ b, s.operandIs va 64 0x43 b ∧ s.tensor (b % 2 ^ 64) = some u ∧ u.freed = false ∧ u.owner = s.partOf s.curCore ∧
          viewOf b u.desc.dims.length u.desc.fmt = some v
      (wrong → Traps cpt s 0x6A ea 0) ∧
      (¬ wrong → ∀ v u v' u', view sv v u → view dv v' u' →
        (v.positions ≠ v'.positions → Traps cpt s 0x6A ea 0) ∧
        (v.positions = v'.positions → s.tagSet tag.toNat = false → ∃ t, exec cpt s = .next t ∧ t.last = .parked ∧ t.mem = s.mem ∧
          t.work = s.work ∧ t.thread.pend = .item (x + 2 ^ 512 * ea.toNat)) ∧
        (v.positions = v'.positions → s.tagSet tag.toNat = true → ∃ j, Asks cpt s s (s.command u.home (.cpT v v' j) []) ∧
          j.kind = .tensor ∧ j.ctx = ctx.toNat ∧ j.bytes = ceilDiv (v'.positions * widthOf u'.desc.fmt) 8 ∧ j.tag = tag.toNat ∧ j.desc = ea ∧ j.act = act)))) ∧
  ∀ (s : State) (k : Nat) (w : Work) (j : CopyJob), s.findWork k = some w → w.body = .copy j → s.halted w.core = false → s.clear w = true →
    (∀ y ∈ s.before w, ∀ i, y.core = w.core → y.body = .copy i → i.ctx ≠ j.ctx) → w.link = .clean → s.holdsRanges w j.ranges = false →
    let goes := fun (P : State → Prop) => ∃ t, exec (.copyCompletion k) s = .next t ∧ P t
    let is := fun (t : State) (j : CopyJob) => t.findWork k = some { w with arrived := none, body := .copy j }
    let c := s.core w.core
    (j.phase = 0 → j.kind = .tensor → j.moved = true → goes (fun t => is t { j with phase := 1 } ∧ t.mem = s.mem)) ∧
    (j.phase = 0 → j.kind ≠ .tensor → j.granules = [] → goes (fun t => is t { j with phase := 1 } ∧ t.mem = s.mem)) ∧
    (∀ g rest src dst n vs vd, j.phase = 0 → j.kind ≠ .tensor → j.granules = g :: rest → g.src = [(src, n, vs)] →
      g.dst = [(dst, n, vd)] → 0 < n → n ≤ 64 → s.distinct → s.forwards = [] → s.moved = [] →
      (s.cluster (clusterOf w.core)).sectors = [] → (∀ key, s.sectorBusy w.core key = false) → s.unheld w →
      s.reachable w.core src = true → s.reachable w.core dst = true →
      let moved := { j with granules := rest, phase := if rest = [] then 1 else 0 }
      let copied := fun (t : State) => WritesBytes s t dst n (s.readNat src n) (2 ^ (8 * n) - 1)
      (s.badAt src n = false → goes (fun t => is t moved ∧ copied t)) ∧
      (∀ i, i < n → s.bad.contains ((src + i) / 8) = true → (∀ h, h < i → s.bad.contains ((src + h) / 8) = false) → j.cause = 0 →
        goes (fun t => is t { moved with cause := 0x73, faultAddr := g.srcAddr + BitVec.ofNat 64 i } ∧ copied t))) ∧
    (j.phase = 1 → j.act = 0 → goes (fun t => is t { j with phase := 2 } ∧ t.mem = s.mem)) ∧
    (∀ a, j.phase = 1 → j.act = 1 → j.target = some a → s.reachable w.core a.key = false →
      goes (fun t => is t { j with phase := 2, cause := 0x17 } ∧ t.mem = s.mem)) ∧
    (∀ a, j.phase = 1 → j.act = 1 → j.target = some a → s.reachable w.core a.key = true → s.reaches w a → s.sharesFree w.heldSince = true →
      s.distinct →
      let x := (s.touch a.key).readNat a.key 16
      (2 ≤ x % 4 → goes (fun t => is t { j with phase := 2, cause := 0x50 } ∧ KeepsBytes s t)) ∧
      (x % 4 < 2 → bits x 13 2 = 0 → goes (fun t => is t { j with phase := 2 } ∧
        WritesBytes s t (s.fwd a.key) 16 (2 + j.cause % 2 ^ 64 * 2 ^ 64) (2 ^ 128 - 1)))) ∧
    (∀ a, j.phase = 1 → j.act = 2 → j.target = some a → s.distinct →
      let b := barrierOf (s.readNat a.key 16)
      goes (fun t => is t { j with phase := 2 } ∧ WritesBytes s t (s.fwd a.key) 16
        ({ b with bytes := (BitVec.ofInt 64 (b.bytes - j.bytes)).toInt }).turn.toNat (2 ^ 128 - 1))) ∧
    (j.phase = 1 → j.act = 3 → k < s.nextId → goes (fun t => t.mem = s.mem ∧ ∃ m ∈ t.work, m.core = w.core ∧ m.slot = 20 + j.ctx ∧
      m.body = .msg j.atgt.toNat ⟨j.desc, BitVec.ofNat 64 j.cause⟩)) ∧
    (j.phase = 2 → j.faddr = none → s.distinct →
      goes (fun t => is t { j with phase := 3 } ∧ WritesBytes s t (s.fwd j.status) 8 j.cause (2 ^ 64 - 1))) ∧
    (j.phase = 2 → j.faddr = some (j.status + 8) → s.distinct → s.moved = [] → s.forwards = [] →
      goes (fun t => is t { j with phase := 3 } ∧
        WritesBytes s t j.status 16 (j.cause % 2 ^ 64 + j.faultAddr.toNat * 2 ^ 64) (2 ^ 128 - 1))) ∧
    (j.phase = 3 → j.ctx < 4 → goes (fun t => t.findWork k = none ∧ t.mem = s.mem ∧
      (t.core w.core).tags = c.tags ||| (1 : Word) <<< j.tag ∧
      (vget (t.core w.core).copies j.ctx {}).done = (vget c.copies j.ctx {}).done + 1))

/-- R271, R287, R325, R326: the tags: waits park until tags are set, and acquire; the timelines: a query is an acquire, and a wait
completes once the counter has reached its number. -/
def Obligations.TagsAndTimelines : Prop :=
  ∀ (s : State) (a b : Opd) (kind : BitVec 6), s.placed → registers [a, b] →
    let p := s.thread.pend
    let mask := s.scalar b
    let hit := s.me.tags &&& mask
    let answer := [s.returning (dstOf a) ((BitVec.ofNat 64 (lowestTag hit)).setWidth 512)]
    let acq : Thread → Thread := fun t => { t with acquired := s.tick }
    let waited := fun id n => ∃ t, exec (.tlWait a b kind) s = .next t ∧ t.last = .parked ∧ OnlyThread s t ∧
      t.thread = { s.thread with slot := .parked, pend := .wait 77 [kind.toNat, id, n] }
    (s.me.tags &&& s.scalar a = s.scalar a → Writes (.tagWaitAll a) s acq) ∧
    (s.me.tags &&& s.scalar a ≠ s.scalar a → Parks (.tagWaitAll a) s) ∧
    (hit = 0 → mask ≠ 0 → Parks (.tagWaitAny a b) s) ∧
    (hit ≠ 0 → Sends (.tagWaitAny a b) s answer acq) ∧ (mask = 0 → Sends (.tagWaitAny a b) s answer id) ∧
    (hit ≠ 0 → Sends (.tagFfr a b) s answer acq) ∧ (hit = 0 → Sends (.tagFfr a b) s answer id) ∧
    (s.timeline s.curCore kind.toNat mask.toNat = none → Traps (.tlRd a b kind) s 0x6C mask 0) ∧
    (∀ v, s.timeline s.curCore kind.toNat mask.toNat = some v → Sends (.tlRd a b kind) s
      [s.item (s.timelineHome kind.toNat mask.toNat) [] true (.tlRd kind.toNat mask.toNat (dstOf a))] id) ∧
    (p = .none → s.timeline s.curCore kind.toNat (s.scalar a).toNat = none → Traps (.tlWait a b kind) s 0x6C (s.scalar a) 0) ∧
    (∀ l, p = .wait 77 l → s.timeline s.curCore kind.toNat (s.scalar a).toNat = none → Parks (.tlWait a b kind) s) ∧
    (p ≠ .elapsed → ∀ v, s.timeline s.curCore kind.toNat (s.scalar a).toNat = some v →
      (mask.toNat ≤ v → Writes (.tlWait a b kind) s acq) ∧ (v < mask.toNat → waited (s.scalar a).toNat mask.toNat)) ∧
    (p = .elapsed → Writes (.tlWait a b kind) s acq)

/-! ## Work items, futures and graphs -/

/-- R304-R306, R315-R317, R319, R322, R341: take, done, emit, susp and g.notify: what they trap on, what they send, and what a take
receives, from its deque or stolen for it, a tuple or a continuation record. A thread of no graph, or with no item where one is
needed, traps with 0x53.
The result of a notify to an ended graph is a free value (log 6). That done, emit and susp of an ended graph complete with no other effect
(log 62) and that a take's ended slot holds its reset values (log 35) are the model's choices. -/
def Obligations.WorkItems : Prop :=
  ∀ (s : State) (a b : Opd) (edge n : BitVec 6), s.placed → registers [a, b] →
    let th := s.thread
    let x := s.scalar a
    let y := s.scalar b
    let none_ := th.member = none ∨ th.item = none
    let end_ : Instr := .done
    let src := s.src
    (th.member = none ∨ th.item ≠ none → Traps (.take a b) s 0x53 0 0) ∧
    (none_ → Traps end_ s 0x53 0 0 ∧ Traps (.emit edge a b) s 0x53 0 0) ∧
    (th.member = none → Traps (.gNotify a b n) s 0x53 0 0) ∧
    (src.member = none ∨ src.item = none → s.outstanding s.curCore s.curSlot = false → Traps (.susp a b) s 0x53 0 0) ∧
    ∀ m, th.member = some m →
      (th.item = none → m.ended = true → ∃ t, exec (.take a b) s = .next t ∧ t.last = .completed ∧ t.mem = s.mem ∧ t.thread = {}) ∧
      (m.ended = true → Completes (.gNotify a b n) s) ∧
      (∀ d, th.item = none → m.ended = false → th.heldItem = none → th.stolen = none →
        s.me.deque m.graph m.stage = some d → d.items = [] → ∃ t, exec (.take a b) s = .next t ∧ t.last = .parked ∧ t.mem = s.mem ∧
          t.thread = { th with slot := .parked, pend := .wait 80 [] }) ∧
      (∀ it r, th.item = none → m.ended = false → th.heldItem = none →
        (th.stolen = some it ∨ th.stolen = none ∧ ∃ d, s.me.deque m.graph m.stage = some d ∧ d.items = it :: r) →
        let got : Item := { it with reserve := false, tested := false }
        let th' : Thread := { th with acquired := s.tick, item := some got, heldItem := none, stolen := none }
        let hit := ((s.die (m.graph / 128)).dbm.toList.zipIdx).find? (fun q => dbmMatches q.1 it s.curCore)
        let gives := fun (f : State → Prop) => ∃ t, exec (.take a b) s = .next t ∧ KeepsBytes s t ∧ f t ∧
          (s.me.input = [] → th.stolen = none → hit = none → ∀ d, s.me.deque m.graph m.stage = some d →
            t.me.deque m.graph m.stage = some { d with items := r })
        (it.record = none → hit = none → gives (fun t => t.last = .completed ∧
          t.thread = { s.after with acquired := s.tick, item := some got, heldItem := none, stolen := none } ∧
          t.work = s.work ++ numbered s.nextId (if a = b then [s.returning (dstOf b) (it.hi.setWidth 512)]
            else [s.returning (dstOf a) (it.lo.setWidth 512), s.returning (dstOf b) (it.hi.setWidth 512)]) ∧
          t.me.qwait = s.me.qwait + BitVec.ofNat 64 it.age)) ∧
        (∀ key, it.record = some key → hit = none → s.regions = [] → s.homeBusy s.curCore key = false → s.sectorBusy s.curCore key = false →
          (s.cluster (clusterOf s.curCore)).sector key = none → gives (fun t =>
            let x := (s.touch key).readNat key 56
            let pair := (if a = b then th' else th'.withScalar a (BitVec.ofNat 64 (byteField x 15 8))).withScalar b
              (BitVec.ofNat 64 (byteField x 23 16))
            t.last = .completed ∧ t.work = s.work ∧ t.thread = { (carried x).foldl (fun u p => u.setS p.1 p.2) pair with
              pc := m.code + BitVec.ofInt 64 (4 * sext (bits x 63 36) 28), slot := .ready, pend := .none, popped := [],
              promised := [], sources := none })) ∧
        (∀ reg i, hit = some (reg, i) → it.record = none → gives (fun t =>
          (reg.getLsbD 62 = true → t.last = .trapped 0x71 it.lo (BitVec.ofNat 64 i)) ∧
          (reg.getLsbD 62 = false → t.last = .parked ∧ t.thread.stopping = some .byControl ∧
            t.thread.heldItem = some { it with reserve := false })))) ∧
      (∀ it, th.item = some it →
        (m.ended = true → Writes end_ s (fun t => { t with item := none }) ∧ ∃ t, exec (.emit edge a b) s = .next t ∧
          t.last = .completed ∧ t.mem = s.mem ∧ t.work = s.work ∧ t.thread = s.after) ∧
        (m.ended = false → Sends end_ s [s.releasing (s.doneScope m.graph) (engineHome (m.graph / 128)) (.done m.graph)]
          (fun t => { t with item := none })) ∧
        (m.ended = false → ∀ g, s.graphOf m.graph = some g →
          (g.edges[edge.toNat]? = none → Traps (.emit edge a b) s 0x52 0 0) ∧
          (∀ f tgt, g.edges[edge.toNat]? = some (f, tgt) → f ≠ m.stage → Traps (.emit edge a b) s 0x52 0 0) ∧
          ∀ tgt core s', g.edges[edge.toNat]? = some (m.stage, tgt) →
            let places := (g.stages[tgt]?.map (·.places)).getD []
            s.emitTarget m.graph edge.toNat places = (core, s') →
            (s.bufCap ≤ s.itemsToward s.curCore core → ∃ t, exec (.emit edge a b) s = .next t ∧ t.last = .parked ∧ t.mem = s.mem ∧
              t.work = s.work ∧ t.thread = { th with slot := .parked } ∧ t.me.emitParked = (if s.me.emitParked.any (fun q => q.1 == s.curSlot) then s.me.emitParked
                else s.me.emitParked ++ [(s.curSlot, s.me.clock, m.graph, edge.toNat)])) ∧
            (s.itemsToward s.curCore core < s.bufCap → ∃ t, exec (.emit edge a b) s = .next t ∧ t.last = .completed ∧ t.mem = s.mem ∧
              t.thread = s.after ∧ t.graphOf m.graph = some { g with live := g.live + 1 } ∧
              t.work = s.work ++ numbered s.nextId [s.releasing (s.coresScope s.curCore places) (mailHome core)
                (.item core ⟨m.graph, tgt, x, y, some edge.toNat, none, s.curCore, 0, false, false, false⟩)])) ∧
        (s.outstanding s.curCore s.curSlot = true → Parks (.susp a b) s)) ∧
      (∀ it, src.member = some m → src.item = some it → s.outstanding s.curCore s.curSlot = false →
        (∀ e s', s.recordAt x = (.error e, s') → Traps (.susp a b) s e x 0) ∧
        ∀ r s', s.recordAt x = (.ok r, s') →
          let regs := maskRegs y
          let resume := (s.nextPc - m.code).toInt / 4
          let wrong := y.getLsbD 0 = true ∨ 4 < regs.length ∨ 2 ^ 27 ≤ resume.natAbs
          let acc : Access := { r with n := 56 }
          let store := s'.item (s'.accessHome s.curCore acc) [] false
            (.store acc (continuation src it m.stage regs resume) (2 ^ 448 - 1))
          let sent := s'.item (engineHome (recordDie (s'.fwd r.key))) [s'.nextId] false
            (.seal { it with record := some (s'.fwd r.key), edge := none })
          (wrong → Traps (.susp a b) s 0x54 0 0) ∧
          (¬ wrong → SendsFrom (.susp a b) s s' (if m.ended then [store] else [store, sent])
            (fun t => { t with item := none, pc := m.start }))) ∧
      (m.ended = false → Sends (.gNotify a b n) s
        [s.item (engineHome (m.graph / 128)) [] false (.notify m.graph n.toNat y (dstOf a))] id)

/-- R109, R111, R303, R323, R324: a future instruction asks the future's home and parks, once its thread's earlier acquires have been
performed and, for a release, what it must wait for; it completes with its answer, or traps when it is refused; an address that fails its
checks traps with 0x51, and one with no live path to its home with 0x17 (R297).
R302, R303, R305, R323: an operation performed at a future's home: its state word holds the state in bits [1:0] and the
number of waiters in bits [13:2], its value word the value; a record registers at the head of its waiter list.
A resolution that follows a list waits for what is held at a region's shares (log 81), a record is known by where it is held now and keeps
the graph that registered it (log 43), and the rights that an operation needs (log 39): these are the model's choices. -/
def Obligations.Futures : Prop :=
  (∀ (s : State) (a b c : Opd), s.placed → registers [a, b, c] →
    let p := s.thread.pend
    let ends := fun i (f : Word → Prop) =>
      (∀ v, p = .answered v → f v) ∧ (∀ e ta ti, p = .refused e ta ti → Traps i s e ta ti) ∧ (∀ k ids, p = .wait k ids → Parks i s)
    let result := fun i (v : Word) => Sends i s [s.returning (dstOf a) (v.setWidth 512)] id
    let done := fun i (_ : Word) => Writes i s id
    let rw : Need := { r := true, w := true }
    let fails := fun i ea need => p = .none → ∀ e s', s.checkAddr ea 16 rawWindows true need true = (.error e, s') → Traps i s (if e = 0x17 then 0x17 else 0x51) ea 0
    let found := fun ea need (P : Access → State → Prop) => p = .none →
      ∀ acc s', s.checkAddr ea 16 rawWindows true need true = (.ok acc, s') → P acc s'
    let asks := fun i op ea need (v : Word) (release : Bool) => fails i ea need ∧ found ea need (fun acc s' =>
      let body : Body := .fut op acc .none v none
      let home := s'.accessHome s.curCore acc
      let scope := max 2 (s'.scope s.curCore acc.key)
      let free := s'.acquiring = false ∧ (release = true → s'.releaseDeps scope = [])
      (free → Asks i s s' (if release then s'.releasing scope home body else s'.item home [] false body)) ∧ (¬ free → Parks i s))
    ends (.futInit a) (done (.futInit a)) ∧ ends (.futReg a b c) (result (.futReg a b c)) ∧ ends (.futRes a b) (done (.futRes a b)) ∧
    ends (.futResP a b) (done (.futResP a b)) ∧ ends (.futRd a b) (result (.futRd a b)) ∧ ends (.futRdS a b) (result (.futRdS a b)) ∧
    asks (.futInit a) 0 (s.scalar a) rw 0 false ∧ asks (.futRes a b) 2 (s.scalar a) rw (s.scalar b) true ∧
    asks (.futResP a b) 3 (s.scalar a) rw (s.scalar b) true ∧ asks (.futRd a b) 4 (s.scalar b) { r := true } 0 false ∧
    asks (.futRdS a b) 5 (s.scalar b) { r := true } 0 false ∧ fails (.futReg a b c) (s.scalar b) rw ∧
    found (s.scalar b) rw (fun acc s1 =>
      (∀ e s2, s1.recordAt (s.scalar c) = (.error e, s2) → Traps (.futReg a b c) s e (s.scalar c) 0) ∧
      ∀ r s2, s1.recordAt (s.scalar c) = (.ok r, s2) →
        (s2.acquiring = false →
          Asks (.futReg a b c) s s2 (s2.item (s2.accessHome s.curCore acc) [] false (.fut 1 acc .none 0 (some r)))) ∧
        (s2.acquiring = true → Parks (.futReg a b c) s))) ∧
  (∀ (s : State) (k : Nat) (w : Work) (a r : Access) (dst : Dst) (arg : Word),
    s.due k w → w.body = .fut 1 a dst arg (some r) → a.n = 16 → (s.arrive w).reaches w a → w.slot < 16 → s.bad = [] → s.soft = [] →
    s.arrives w.core w.home a.key = true → s.reachable w.core (r.key + 56) = true →
    r.via ≠ .scratch → s.sectorBusy w.core (r.key + 56) = false → (s.cluster (clusterOf w.core)).sector (r.key + 56) = none →
    let x := s.readNat a.key 16
    let old := s.threadAt w.core w.slot
    let link := s.fwd (r.key + 56)
    let word := s.fwd a.key
    let goes := fun (p : Pend) (P : State → Prop) => ∃ t, exec (.homeAccess k) s = .next t ∧ t.findWork k = none ∧ P t ∧
      ∀ m ids, old.pend = .wait m ids → ids.contains k = true → (t.threadAt w.core w.slot).pend = p
    (2 ≤ x % 4 → goes (.answered (if x % 4 = 2 then 1 else 2)) (KeepsBytes s)) ∧
    (x % 4 < 2 → bits x 13 2 = 4095 → goes (.refused 0x51 a.ea 0) (KeepsBytes s)) ∧
    (x % 4 < 2 → bits x 13 2 ≠ 4095 → goes (.answered 0) (fun t =>
      ((t.die (recordDie (s.fwd r.key))).record (s.fwd r.key)).reg = (match old.member with | some m => if m.ended then 0 else m.graph | none => 0) ∧
      (s.memOk → link + 8 ≤ word ∨ word + 16 ≤ link →
        (∀ i, i < 8 → memGet t.mem (link + i) = byteAt (bits x 63 14 * 64) i) ∧
        (∀ i, i < 16 → memGet t.mem (word + i) =
          byteAt (1 + (bits x 13 2 + 1) * 4 + bits r.ea.toNat 55 6 * 2 ^ 14 + x / 2 ^ 64 * 2 ^ 64) i) ∧
        ∀ b, (b < link ∨ link + 8 ≤ b) → (b < word ∨ word + 16 ≤ b) → memGet t.mem b = memGet s.mem b)))) ∧
  ∀ (s : State) (k op : Nat) (w : Work) (a : Access) (dst : Dst) (arg : Word),
    s.due k w → w.body = .fut op a dst arg none → a.n = 16 → (s.arrive w).reaches w a → w.slot < 16 → s.arrives w.core w.home a.key = true →
    let x := (s.arrive w).readNat a.key 16
    let old := s.threadAt w.core w.slot
    let acq := if 2 ≤ x % 4 then s.tick else old.acquired
    let goes := fun (P : State → Prop) => ∃ t, exec (.homeAccess k) s = .next t ∧ t.findWork k = none ∧ P t
    let tells := fun (t : State) (v : Nat) => ∀ m ids, old.pend = .wait m ids → ids.contains k = true →
      (t.threadAt w.core w.slot).pend = .answered (BitVec.ofNat 64 v) ∧ (t.threadAt w.core w.slot).acquired = acq
    let writes := fun (t : State) (y : Nat) => WritesBytes s t (s.fwd a.key) 16 y (2 ^ 128 - 1)
    (op = 0 → goes (fun t => writes t 0)) ∧
    ((op = 2 ∨ op = 3) → s.sharesFree w.heldSince = true → x % 4 < 2 → bits x 13 2 = 0 → goes (fun t => writes t (op + arg.toNat * 2 ^ 64))) ∧
    ((op = 2 ∨ op = 3) → s.sharesFree w.heldSince = true → 2 ≤ x % 4 → goes (fun t => KeepsBytes s t ∧ ∀ m ids, old.pend = .wait m ids → ids.contains k = true →
      (t.threadAt w.core w.slot).pend = .refused 0x50 a.ea 0)) ∧
    (op = 4 → goes (fun t => KeepsBytes s t ∧ tells t (x / 2 ^ 64))) ∧
    (op = 5 → goes (fun t => KeepsBytes s t ∧ tells t (x % 2 ^ 64)))

/-- R313, R328-R332, R343: g.launch is a release at .sys that carries its tuple; the phrase-lease instructions: a lease is refused,
or asked of its channel; a run is checked in the order of R343 and accepted with the next number of its lease; a lease is freed
once its runs have completed.
A lease asked of a channel that enters a lower state is refused with 0 (log 37), cr.taddr of cause 0x6B holds the lease handle (log 36), and a
physical address and the limits of its phrase block give 0x46 (log 77): these are the model's choices. -/
def Obligations.GraphInstructions : Prop :=
  ∀ (s : State) (a b c : Opd), s.placed → registers [a, b, c] →
    let p := s.thread.pend
    let u := s.src
    let x := s.scalar b
    let y := s.scalar c
    let result := fun i (v : Word) => Sends i s [s.returning (dstOf a) (v.setWidth 512)] id
    let launch := fun (s' : State) (lo hi : Word) =>
      s'.releasing 3 (engineHome (dieOf s.curCore)) (.launch (dieOf s.curCore) x lo hi u.asid.toNat u.pgroot.toNat u.priv (dstOf a))
    let lease : Instr := .phLease a b c
    let run : Instr := .phRun a b c
    let refused := 256 ≤ x.toNat ∨ 2 ^ 16 ≤ y.toNat ∨ y = 0 ∨ s.deadChannels.contains x.toNat = true
    (s.privileged = true → x = 0 → Sends (.gLaunch a b c) s [launch s y 0] id) ∧
    (s.privileged = true → x ≠ 0 → ∀ e s1, s.checkAddr y 8 rawWindows true { r := true } false = (.error e, s1) →
      Traps (.gLaunch a b c) s e y 0) ∧
    (s.privileged = true → x ≠ 0 → ∀ m n lo hi s1 s2 s3 s4, s.checkAddr y 8 rawWindows true { r := true } false = (.ok m, s1) →
      s1.checkAddr (y + 8) 8 rawWindows true { r := true } false = (.ok n, s2) → s2.readNow m = some (lo, s3) →
      s3.readNow n = some (hi, s4) → ∃ t, exec (.gLaunch a b c) s = .next t ∧ t.last = .completed ∧ t.thread = s4.after ∧
        OnlySends s4 t [launch s4 (BitVec.ofNat 64 lo) (BitVec.ofNat 64 hi)]) ∧
    (∀ v, p = .answered v → result lease v) ∧ (p = .none → refused → result lease 0) ∧
    (p = .none → ¬ refused → s.enteringPower x.toNat = false → ∃ t, exec lease s = .next t ∧ t.last = .parked ∧ t.mem = s.mem ∧
      t.phraseReqs = s.phraseReqs ++ [⟨x.toNat, s.curCore, s.curSlot, y.toNat⟩] ∧
      t.thread = { s.thread with slot := .parked, pend := .wait 78 [] }) ∧
    (p = .none → ¬ refused → s.enteringPower x.toNat = true → ∃ t, exec lease s = .next t ∧ t.last = .completed ∧ t.mem = s.mem ∧
      t.thread = s.after ∧ t.work = s.work ++ [{ s.returning (dstOf a) 0 with id := s.nextId }] ∧ t.phraseReqs = s.phraseReqs) ∧
    (∀ e, s.blockAt y 64 = .error e → Traps run s e y 0) ∧
    (∀ acc d s1, s.errorFree → s.blockAt y 64 = .ok acc → s.readNow acc = some (d, s1) →
      (s.phraseLease x.toNat = none → Traps run s 0x6B x 0) ∧
      ∀ l, s.phraseLease x.toNat = some l →
        let count := byteField d 35 32
        let fmt := byteField d 36 36
        let pa : Word := BitVec.ofNat 64 (byteField d 31 24)
        let wrong := byteField d 63 37 ≠ 0 ∨ count = 0 ∨ 2 ^ 24 < count ∨ runFormat fmt = false
        let width := widthOf fmt / 8
        let mine := l.core = s.curCore ∧ l.ended = false ∧ l.accepted < l.expiry
        (l.core ≠ s.curCore ∨ l.ended = true ∨ l.expiry ≤ l.accepted → Traps run s 0x6B x 0) ∧
        (mine → wrong → Traps run s 0x46 y 0) ∧
        (mine → ¬ wrong → ∀ e, s1.blockAt pa 64 = .error e → Traps run s 0x46 y 0) ∧
        (mine → ¬ wrong → ∀ acc2 e s2, s1.blockAt pa 64 = .ok acc2 → s1.readNow acc2 = some (e, s2) →
          let nh := byteField e 1 1
          let used := byteField d 7 0 :: ((if 2 ≤ nh then [byteField d 15 8] else []) ++ (if 3 ≤ nh then [byteField d 23 16] else []))
          let far := s2.leavesHbm (count * width) used
          let limit := byteField e 63 48 ≠ 0 ∨ (∃ v ∈ used, 2 ^ 56 ≤ v ∨ v % width ≠ 0) ∨ far.1 = true
          let ranges := far.2.translateEach (count * width)
            (used.zipIdx.map (fun v => (v.1, if v.2 = 0 then { w := true } else { r := true })))
          (limit → Traps run s 0x46 y 0) ∧ (¬ limit → phraseOf e = none → Traps run s 0x45 pa 0) ∧
          (¬ limit → phraseOf e ≠ none → ∀ er s3, ranges = (.error er, s3) → Traps run s er.1 er.2 0) ∧
          (¬ limit → s.walksClear → ∀ q, phraseOf e = some q → ∀ accs s3, ranges = (.ok accs, s3) → ∃ t m r, exec run s = .next t ∧ t.last = .completed ∧ t.thread = s2.after ∧ KeepsBytes s t ∧
            t.work = s.work ++ [m, { s.returning (dstOf a) ((BitVec.ofNat 64 (l.accepted + 1)).setWidth 512) with id := s.nextId + 1 }] ∧
            m.body = .phRun r ∧ m.home = channelHome l.chan ∧ r.lease = l.handle ∧ r.num = l.accepted + 1 ∧ r.count = count ∧
            r.dst = accs.headD [] ∧ r.src1 = accs[1]?.getD [] ∧ r.src2 = accs[2]?.getD [] ∧ r.fmt = fmt ∧ r.phrase = q ∧
            t.phraseLease x.toNat = some { l with accepted := l.accepted + 1 }))) ∧
    (s.phraseLease (s.scalar a).toNat = none → Traps (.phFree a) s 0x6B (s.scalar a) 0) ∧
    ∀ l, s.phraseLease (s.scalar a).toNat = some l →
      (l.core ≠ s.curCore → Traps (.phFree a) s 0x6B (s.scalar a) 0) ∧
      (l.core = s.curCore → l.done < l.accepted → Parks (.phFree a) s) ∧
      (l.core = s.curCore → l.accepted ≤ l.done → ∃ t, exec (.phFree a) s = .next t ∧ t.last = .completed ∧ t.mem = s.mem ∧
        t.thread = { s.after with acquired := s.tick } ∧ t.phraseLeases = s.phraseLeases.erase l)

/-! ## The lexicon -/

/-- R344-R346, R352, R357, R361: a lexicon instruction asks its slot's lexicon and parks; it completes with its answer, and with
a sequence stop it then enters the trap 0x60; a slot that is not assigned traps with 0x61. cr.lexrel is written so too.
R344-R349, R356-R358, R364: a command at a slot whose storage is sound: a reset gives a RUN slot with nothing in it; a slot
that is not RUN is left alone; a ninth draft is refused; a token that nothing matches is committed at the next position. -/
def Obligations.Lexicon : Prop :=
  (∀ (s : State) (a b c : Opd) (k : BitVec 6), s.placed → registers [a, b, c] →
    let p := s.thread.pend
    let stops : Word → Word → Thread → Thread := fun v stop t => { t with pendTrap := some ⟨0x60, stop, v, s.nextPc, s.pc⟩ }
    let w := fun i (v : Word) (res : Bool) =>
      (p = .none → (s.partAt s.curCore).slotAssigned v.toNat = false → Traps i s 0x61 v 0) ∧
      (∀ x, p = .answered x → if res then Sends i s [s.returning (dstOf a) (x.setWidth 512)] id else Writes i s id) ∧
      (∀ x stop, p = .performed x stop →
        if res then Sends i s [s.returning (dstOf a) (x.setWidth 512)] (stops x stop) else Writes i s (stops x stop)) ∧
      (∀ e ta ti, p = .refused e ta ti → Traps i s e ta ti) ∧ (∀ m ids, p = .wait m ids → Parks i s)
    let asks := fun i (v : Word) cmd => p = .none → (s.partAt s.curCore).slotAssigned v.toNat = true →
      Asks i s s (s.item (lexHome v.toNat) [] false (.lex v.toNat cmd))
    let x := s.scalar a
    let y := s.scalar b
    let z := s.scalar c
    w (.tkArm a b k) x false ∧ w (.tkBud a b k) x false ∧ w (.tkDraft a b) x false ∧ w (.lexrelWrite a) x false ∧
    w (.crWr a 0x0C2) x false ∧ w (.tkCmt a b c) y true ∧ w (.tkConf a b c) y true ∧ w (.tkNext a b) y true ∧ w (.tkSt a b k) y true ∧
    (k = 8 → y.toNat ≤ 1 → asks (.tkArm a b k) x (.reset (y == 1))) ∧
    (k = 8 → 1 < y.toNat → p = .none → (s.partAt s.curCore).slotAssigned x.toNat = true → Traps (.tkArm a b k) s 0x62 x 0) ∧
    (k ≠ 8 → p = .none → (s.partAt s.curCore).slotAssigned x.toNat = true → (∀ e, s.blockAt y 64 = .error e → Traps (.tkArm a b k) s e y 0) ∧
      (s.bad = [] → s.soft = [] → ∀ d, s.blockIs y d → (s.lexEntry d = none → Traps (.tkArm a b k) s 0x62 y 0) ∧
        ∀ en, s.lexEntry d = some en → asks (.tkArm a b k) x (.arm k.toNat en))) ∧
    (k = 0 → y.toNat < 2 ^ 16 → asks (.tkBud a b k) x (.bud 0 y)) ∧ (k = 1 → asks (.tkBud a b k) x (.bud 1 y)) ∧
    (k = 0 → 2 ^ 16 ≤ y.toNat → p = .none → (s.partAt s.curCore).slotAssigned x.toNat = true → Traps (.tkBud a b k) s 0x62 x 0) ∧
    asks (.tkDraft a b) x (.draft (y.toNat % 2 ^ 24)) ∧ asks (.lexrelWrite a) x .release ∧ asks (.crWr a 0x0C2) x .release ∧
    asks (.tkCmt a b c) y (.cmt (z.toNat % 2 ^ 24)) ∧ asks (.tkConf a b c) y (.conf z.toNat) ∧ asks (.tkNext a b) y .next ∧
    asks (.tkSt a b k) y (.st k.toNat)) ∧
  ∀ (s : State) (k v : Nat) (w : Work) (cmd : LexCmd), s.due k w → w.body = .lex v cmd → w.slot < 16 →
    let x := s.lexSlot v
    let old := s.threadAt w.core w.slot
    let word := fun tok => 0xF * 2 ^ 28 + tok
    let goes := fun (p : Pend) (y : LexSlot) => ∃ t, exec (.homeAccess k) s = .next t ∧ t.findWork k = none ∧ t.mem = s.mem ∧
      t.lexSlot v = y ∧ ∀ m ids, old.pend = .wait m ids → ids.contains k = true → (t.threadAt w.core w.slot).pend = p
    let tells := fun (n : Nat) (y : LexSlot) => goes (.answered (BitVec.ofNat 64 n)) y
    x.bad = false → x.soft = false →
      (∀ trap, cmd = .reset trap → tells 0 { state := .run, trap := trap }) ∧
      (cmd = .release → tells 0 { x with state := .free }) ∧
      (cmd = .next → tells (x.pos * 2 ^ 32 + x.drafts.length * 2 ^ 12 + x.force.length * 2 ^ 7 + (if x.trap then 2 else 0) +
        (if x.state = .run then 0 else 1)) x) ∧
      (∀ sel, cmd = .st sel → tells (x.status sel) x) ∧
      (∀ e en, cmd = .arm e en → tells 0 (if x.state = .run then { x with entries := vset x.entries e (some en) } else x)) ∧
      (∀ i val, cmd = .bud i val → x.state ≠ .run → tells 0 x) ∧
      (∀ i (val : Word), cmd = .bud i val → x.state = .run →
        let n := val.toNat
        let on := n % 2 ^ 16 != 0
        tells 0 (if i = 0 then { x with b0 := ⟨n % 2 ^ 16, on, false, if i = 1 then bits n 39 16 else 0, if i = 1 then bits n 63 40 else 0⟩ }
          else { x with b1 := ⟨n % 2 ^ 16, on, false, if i = 1 then bits n 39 16 else 0, if i = 1 then bits n 63 40 else 0⟩ })) ∧
      (∀ tok, cmd = .draft tok → x.state = .run → x.drafts.length < 8 → tells 0 { x with drafts := x.drafts ++ [tok] }) ∧
      (∀ tok, cmd = .draft tok → x.state = .run → 8 ≤ x.drafts.length → goes (.refused 0x63 (BitVec.ofNat 64 v) 0) x) ∧
      (∀ tok, cmd = .draft tok → x.state ≠ .run → tells 0 x) ∧
      (∀ tok, cmd = .cmt tok → x.state ≠ .run → tells (2 ^ 64 - 1) x) ∧ (∀ n, cmd = .conf n → x.state ≠ .run → tells (2 ^ 64 - 1) x) ∧
      ∀ tok, cmd = .cmt tok → x.state = .run → x.force = [] → x.entries = Vector.replicate 8 none → x.b0 = {} → x.b1 = {} →
        tells (word tok) { x with drafts := [], pos := (x.pos + 1) % 2 ^ 32, history := (tok :: x.history).take 3 }

/-! ## Control registers, traps and counters -/

/-- R6, R7, R60, R116, R123, R221: reads and writes of control registers: a read returns the register, and a read of cr.cause clears UNREAD
in the same step; a write reaches the writable fields, a set and a clear those under the mask; no other register changes. That a register of a partition is one of the core's partition is the model's choice
(log 72). -/
def Obligations.ControlRegisters : Prop :=
  ∀ (s : State) (a : Opd) (n : BitVec 12), s.placed → registers [a] → s.snap = none →
    let x := s.scalar a
    let f := crFields n.toNat
    let m : Word := BitVec.ofNat 64 (f.rw ||| f.rwp)
    let w1c : Word := BitVec.ofNat 64 f.w1c
    let old := s.crRead n.toNat
    let wr : Instr := .crWr a n
    let set : Instr := .crSet a n
    let clr : Instr := .crClr a n
    let reads := fun k => [s.returning (dstOf a) ((s.crRead k).setWidth 512)]
    let read : Thread → Thread := fun t => { t with unread := false }
    let shown := crAssigned n.toNat = true ∧ n ∈ ([0x002, 0x005, 0x006, 0x011, 0x021, 0x032, 0x041, 0x042, 0x043, 0x080, 0x081, 0x082,
      0x083, 0x084, 0x085, 0x086, 0x087, 0x090, 0x0A1, 0x0B0, 0x0B4, 0x0B5, 0x0B6, 0x0B7] : List (BitVec 12))
    let becomes := fun (i : Instr) (v : Word) => ∃ t, exec i s = .next t ∧ t.last = .completed ∧ t.crRead n.toNat = v ∧ t.mem = s.mem ∧
      t.work = s.work ∧ t.thread.pc = s.after.pc ∧ t.thread.s = s.thread.s ∧ t.thread.v = s.thread.v ∧ t.thread.m = s.thread.m ∧
      (∀ j, j ≠ n.toNat → j ≠ 0x030 → t.crRead j = s.crRead j) ∧
      (s.thread.slot = .ready ∨ s.thread.slot = .parked → t.crRead 0x030 = s.crRead 0x030) ∧ ∀ c, c ≠ s.curCore → t.core c = s.core c
    let to_ := fun (k : BitVec 12) (P : State → Prop) => s.privileged = true →
      ∃ t, exec (.crWr a k) s = .next t ∧ t.last = .completed ∧ t.mem = s.mem ∧ t.thread.pc = s.after.pc ∧ P t
    let debug := fun b => numbered s.nextId [s.item 0 [] false (.debug b)]
    let roles := BitVec.ofNat 32 (roleMask s.me.mode)
    let own := s.partAt s.curCore
    (crAssigned n.toNat = false → Traps (.crRd a n) s 0x01 0 0 ∧ Traps wr s 0x01 0 0 ∧ Traps set s 0x01 0 0 ∧ Traps clr s 0x01 0 0) ∧
    (crAssigned n.toNat = true → n ≠ 0x000 → n ≠ 0x011 ∨ s.viewWrites = false → n ≠ 0x010 ∨ s.bankFlags = false →
      Sends (.crRd a n) s (reads n.toNat) id) ∧
    (s.viewWrites = true → Parks (.crRd a 0x011) s) ∧ (s.bankFlags = true → Parks (.crRd a 0x010) s) ∧
    Sends (.crRd a 0x000) s (reads 0) read ∧ Sends (.causeRead a) s (reads 0) read ∧
    (crAssigned n.toNat = true → n ≠ 0x0C2 → f.rwp ≠ 0 → s.privileged = false → Traps wr s 0x04 0 0) ∧
    (crAssigned n.toNat = true → n ≠ 0x0A0 → n ≠ 0x0B1 → f.rwp &&& x.toNat ≠ 0 → s.privileged = false →
      Traps set s 0x04 0 0 ∧ Traps clr s 0x04 0 0) ∧
    (crAssigned n.toNat = true → n ≠ 0x0C2 → f = {} → Writes wr s id ∧ Writes set s id ∧ Writes clr s id) ∧
    (shown → f.rwp = 0 ∨ s.privileged = true → becomes wr (((old &&& ~~~m) ||| (x &&& m)) &&& ~~~(w1c &&& x))) ∧
    (shown → f.rwp &&& x.toNat = 0 ∨ s.privileged = true → becomes set (old ||| (x &&& m)) ∧ becomes clr (old &&& ~~~(x &&& m))) ∧
    Writes (.crWr a 0x010) s (fun t => { t with
      rm := if bits x.toNat 15 13 ≤ 4 then BitVec.ofNat 3 (bits x.toNat 15 13) else t.rm,
      enables := BitVec.ofNat 5 (bits x.toNat 12 8), fflags := BitVec.ofNat 5 (bits x.toNat 4 0) }) ∧
    Writes (.crWr a 0x088) s (fun t => { t with srs := if x.toNat % 2 ^ 32 = 0 then 1 else x.setWidth 32 }) ∧
    (s.privileged = true → Writes (.crWr a 0x020) s (fun t => { t with seg := bits x.toNat 21 6 * 64 })) ∧
    to_ 0x030 (fun t => t.work = s.work ∧ t.me.lock = x.getLsbD 2 ∧
      t.me.roles = (s.me.roles &&& ~~~roles) ||| ((x >>> 32).setWidth 32 &&& roles)) ∧
    to_ 0x031 (fun t => t.work = s.work ∧ t.me.qmin = if byteSum x ≤ 256 then x else s.me.qmin) ∧
    to_ 0x0C0 (fun t => t.work = s.work ∧ if bits x.toNat 11 0 + bits x.toNat 28 16 ≤ 4096
      then (t.partAt s.curCore).lexBase = vset own.lexBase 0 (bits x.toNat 11 0) ∧
        (t.partAt s.curCore).lexNum = vset own.lexNum 0 (bits x.toNat 28 16)
      else (t.partAt s.curCore).lexBase = own.lexBase ∧ (t.partAt s.curCore).lexNum = own.lexNum) ∧
    to_ 0x0B2 (fun t => (t.partAt s.curCore).bhalt = x.getLsbD 2 ∧ (t.partAt s.curCore).brken = x.getLsbD 1 ∧
      t.work = s.work ++ (if x.getLsbD 0 then debug true else if s.halting then debug false else []))

/-- R25, R137, R333, R342: the counters are read, cleared and given their events; the slot-control instructions: a quiescent core
takes its next mode, a halted slot is reclaimed, a ready one stops, once its results have returned, and a stopped one runs again.
The registers after repart are free values (log 6). That slot control is one step (log 34), that a reclaimed slot holds its reset values
(log 35), and the partitions (log 72) are the model's choices. -/
def Obligations.CountersAndSlots : Prop :=
  ∀ (s : State) (a b : Opd) (n : BitVec 6), s.placed → registers [a, b] →
    let x := s.scalar a
    let y := (s.scalar b).toNat
    let core := bits y 10 0
    let mask := bits y 31 16
    let c := s.core core
    let good := bits y 15 11 = 0 ∧ bits y 63 32 = 0 ∧ s.inPartition s.curCore core = true
    let own := fun k => core = s.curCore ∧ k = s.curSlot
    let goes := fun i (P : State → Prop) => ∃ t, exec i s = .next t ∧ t.last = .completed ∧ t.mem = s.mem ∧ P t
    let answer := fun (v : Nat) => s.returning (dstOf a) ((BitVec.ofNat 64 v).setWidth 512)
    let named := fun (p : Thread → Bool) => (((List.range (contexts c.mode)).filter (fun k =>
      mask.testBit k && !(core == s.curCore && k == s.curSlot) && p (c.thread k))).map (2 ^ ·)).foldl (· + ·) 0
    let bad := fun i => s.privileged = true → ¬ good → Traps i s 0x57 (s.scalar b) 0
    (11 < n.toNat → Traps (.ctrRd a n) s 0x01 0 0) ∧
    (n.toNat ≤ 11 → Sends (.ctrRd a n) s [s.returning (dstOf a) ((s.counter n.toNat).setWidth 512)] id) ∧
    (n.toNat < 8 ∨ 11 < n.toNat → Traps (.ctrCfg a n) s 0x01 0 0) ∧
    (8 ≤ n.toNat → n.toNat ≤ 11 → s.privileged = true → 8 ≤ x.toNat % 256 → Traps (.ctrCfg a n) s 0x01 0 0) ∧
    (8 ≤ n.toNat → n.toNat ≤ 11 → s.privileged = true → x.toNat % 256 < 8 → goes (.ctrCfg a n) (fun t => t.thread = s.after ∧
      t.me.evSel = vset s.me.evSel (n.toNat - 8) (x.setWidth 8) ∧ ∀ j, j < 12 → t.counter j = s.counter j)) ∧
    (s.privileged = true → 2 ^ 12 ≤ x.toNat → Traps (.ctrClr a) s 0x01 0 0) ∧
    (s.privileged = true → x.toNat < 2 ^ 12 → goes (.ctrClr a) (fun t => t.work = s.work ∧ t.thread.pc = s.after.pc ∧
      ∀ j, j < 12 → t.counter j = if x.getLsbD j then 0 else s.counter j)) ∧
    bad (.repart a b) ∧ bad (.repartRcl a b) ∧ bad (.repartStop a b) ∧ bad (.repartRun a b) ∧
    (s.privileged = true → good → mask ≠ 0 → Traps (.repart a b) s 0x57 (s.scalar b) 0) ∧
    (s.privileged = true → good → mask = 0 → (core = s.curCore ∨ s.quiescent core = false) → Traps (.repart a b) s 0x72 0 0) ∧
    (s.privileged = true → good → mask = 0 → core ≠ s.curCore → s.quiescent core = true → goes (.repart a b) (fun t =>
      (t.core core).mode = (c.mode + 1) % 3 ∧ (t.core core).roles = 0 ∧
      t.work = s.work ++ numbered s.nextId [answer ((c.mode + 1) % 3)] ∧ t.thread = s.after)) ∧
    (s.privileged = true → good → goes (.repartRcl a b) (fun t =>
      (∀ k, k < contexts c.mode → mask.testBit k = true → ¬ own k → (c.thread k).slot = .halted → t.threadAt core k = {}) ∧
      (∀ k, mask.testBit k = false → ¬ own k → t.threadAt core k = c.thread k) ∧
      ∃ v ∈ t.work, v.body = .ret (dstOf a) ((BitVec.ofNat 64 (named (fun t => t.slot == .halted))).setWidth 512) none 0 [])) ∧
    (s.privileged = true → good → goes (.repartStop a b) (fun t =>
      (∀ k, k < contexts c.mode → mask.testBit k = true → ¬ own k → (c.thread k).slot = .ready → (c.thread k).pend = .none →
        (c.thread k).pendTrap = none → (c.thread k).stopping = none →
        (s.outstanding core k = false → (t.threadAt core k).slot = .stopped ∧ (t.threadAt core k).mark = .byControl ∧
          (t.threadAt core k).competes = false ∧ (t.threadAt core k).pc = (c.thread k).pc) ∧
        (s.outstanding core k = true → (∀ w ∈ s.work, w.arrived = none) →
          (t.threadAt core k).slot = .ready ∧ (t.threadAt core k).stopping = some .byControl)) ∧
      (∀ k, mask.testBit k = false → ¬ own k → t.threadAt core k = c.thread k))) ∧
    (s.privileged = true → good → (∀ k, (c.thread k).withdrawn = []) → goes (.repartRun a b) (fun t =>
      (∀ k, k < contexts c.mode → mask.testBit k = true → ¬ own k → (c.thread k).slot = .stopped → (c.thread k).mark = .byControl →
        (t.threadAt core k).slot = .ready ∧ (t.threadAt core k).competes = false ∧ (t.threadAt core k).pc = (c.thread k).pc) ∧
      (∀ k, mask.testBit k = false → ¬ own k → t.threadAt core k = c.thread k)))

/-- R25, R115, R117: trap entry, with nothing outstanding: it latches the trap's registers and enters the handler; with a trap still
unread, or without a handler, it is a double fault, which halts the thread and tells the die's supervisor cr.tpc of the first trap
alone, or the address of the instruction that raised the second. With a result
outstanding it waits (R25). The entries that an instruction had taken for what it was to push are given back (R30).
When a trap waits for results is R25's; the order of a decided trap and an error trap is the model's reading (log 30). -/
def Obligations.TrapEntry : Prop :=
  ∀ (s : State) (pc : Word) (cause : Nat) (taddr tinfo : Word), s.placed → s.thread.popped = [] →
    let s1 := s.setMe (s.me.unreserve s.thread.promised)
    let th : Thread := { s.thread with promised := [], sources := none, errTrap := if s.thread.ownError then none else s.thread.errTrap }
    let t := s.trapAt pc cause taddr tinfo
    let gone : Thread := { th with pend := .none, pendTrap := none, latch := [] }
    let latched : Thread := { gone with cause := BitVec.ofNat 7 cause, tpc := pc, taddr := taddr, tinfo := tinfo }
    let double := fun (u : Thread) (c : Nat) (addr : Word) =>
      t.thread = { u with cause2 := BitVec.ofNat 7 c, slot := .halted, competes := false, pend := .none, pendTrap := none, latch := [] } ∧
      ∃ m, t.work = s.work ++ [m] ∧ m.home = mailHome (dieOf s.curCore * 1024) ∧
        m.body = .msg (dieOf s.curCore * 1024) ⟨BitVec.ofNat 64 (0x70 + u.cause.toNat * 2 ^ 8 + c % 128 * 2 ^ 16 + s.curSlot * 2 ^ 24 +
          s.curCore % 1024 * 2 ^ 32), addr⟩
    let others := t.mem = s.mem ∧ (∀ c, c ≠ s.curCore → t.core c = s.core c) ∧ ∀ k, k ≠ s.curSlot → t.me.thread k = s.me.thread k
    others ∧ t.last = .trapped cause taddr tinfo ∧
    (s.outstanding s.curCore s.curSlot = true →
      OnlyThread s1 t ∧ t.thread = { th with slot := .parked, pendTrap := some ⟨cause, taddr, tinfo, pc, s.pc⟩ }) ∧
    (s.outstanding s.curCore s.curSlot = false → th.unread = false → th.tvec ≠ 0 → OnlyThread s1 t ∧
      t.thread = { latched with phm := th.hm, hm := true, unread := true, pc := th.tvec, slot := .ready }) ∧
    (s.outstanding s.curCore s.curSlot = false → th.unread = false → th.tvec = 0 → double latched 0 pc) ∧
    (s.outstanding s.curCore s.curSlot = false → th.unread = true → cause % 128 ≠ 0 → double th cause s.pc)

/-- R21, R35, R123-R125, R201, R340: trap, brk and an illegal word enter their traps; eret returns from one; halt ends the
thread; brk stops it where the partition enables breakpoints. trap, eret, halt and the stop behave as marked.
That eret to a misaligned address traps with 0x03 before 0x04 (log 56), and the partitions (log 72), are the model's choices.
R35, R114: a privileged instruction of a thread with neither PRIV nor HM traps with 0x04 and has no other effect. -/
def Obligations.TrapInstructions : Prop :=
  (∀ (s : State) (n : BitVec 12), s.placed →
    let waits := s.outstanding s.curCore s.curSlot
    let back : Thread → Thread := fun t => { t with pc := s.src.tpc, hm := if t.hm then t.phm else false, phm := false, unread := false }
    exec (.trap n) s = .next (s.trapAt s.nextPc 0x05 0 (n.setWidth 64)) ∧
    exec .illegalInstruction s = .next (s.trap 0x01 0 0) ∧
    ((s.partAt s.curCore).brken = false → exec .brk s = .next (s.trapAt s.nextPc 0x06 0 0)) ∧
    (s.src.tpc.toNat % 4 ≠ 0 → Traps .eret s 0x03 s.src.tpc 0) ∧
    (s.src.tpc.toNat % 4 = 0 → s.privileged = true → waits = true → Parks .eret s) ∧
    (s.src.tpc.toNat % 4 = 0 → s.privileged = true → waits = false → Writes .eret s back) ∧
    (s.inPair = false → waits = true → Parks .halt s) ∧
    (s.inPair = true ∨ waits = false → ∃ t, exec .halt s = .next t ∧ t.last = .completed ∧ t.mem = s.mem ∧ t.work = s.work ∧
      t.thread = { s.after with slot := .halted, competes := false } ∧ (t.array s.curCore).holder ≠ some (s.curCore, s.curSlot)) ∧
    ((s.partAt s.curCore).brken = true → (∀ w ∈ s.work, w.waitsOf s.curCore s.curSlot = false) → s.thread.latch = [] → s.thread.pendTrap = none →
      s.thread.stopping = none → ∃ t, exec .brk s = .next t ∧ t.last = .completed ∧ t.mem = s.mem ∧
      t.thread = (if waits then { s.after with stopping := some .byControl }
        else { s.after with slot := .stopped, competes := false, mark := .byControl }) ∧
      t.work = s.work ++ (if (s.partAt s.curCore).bhalt then numbered s.nextId [s.item 0 [] false (.debug true)] else []))) ∧
  ∀ (s : State) (a b c : Opd) (n : BitVec 6), s.privileged = false →
    Traps (.tWiden a b c) s 0x04 0 0 ∧ Traps (.tlbInv a b c) s 0x04 0 0 ∧ Traps .tlbSync s 0x04 0 0 ∧ Traps (.dcInv a b) s 0x04 0 0 ∧ Traps (.gLaunch a b c) s 0x04 0 0 ∧
    Traps (.repart a b) s 0x04 0 0 ∧ Traps (.repartRcl a b) s 0x04 0 0 ∧ Traps (.repartStop a b) s 0x04 0 0 ∧
    Traps (.repartRun a b) s 0x04 0 0 ∧ Traps (.ctrClr a) s 0x04 0 0 ∧ (8 ≤ n.toNat → n.toNat ≤ 11 → Traps (.ctrCfg a n) s 0x04 0 0) ∧
    (s.src.tpc.toNat % 4 = 0 → Traps .eret s 0x04 0 0) ∧ Traps (.crWr a 0x0A0) s 0x04 0 0 ∧ Traps (.crWr a 0x0B1) s 0x04 0 0

/-- R116: a read of cr.cause clears UNREAD in the same step; a read of any other register leaves UNREAD unchanged, and so does a write to
any register. -/
def Obligations.CauseReads : Prop :=
  ∀ (s : State) (a : Opd) (n : BitVec 12), s.placed →
    let clears := fun i => s.me.queuesReady [⟨.scalar, .dst, a⟩] = true → ∃ t, exec i s = .next t ∧ t.last = .completed ∧
      t.thread.unread = false ∧ (a.isQueue = false → t.work = s.work ++ numbered s.nextId [s.returning (dstOf a) (s.src.cause.setWidth 512)])
    let leaves := fun i => ∀ t, exec i s = .next t → (∀ cause taddr tinfo, t.last ≠ .trapped cause taddr tinfo) →
      t.thread.unread = s.thread.unread
    clears (.crRd a 0x000) ∧ clears (.causeRead a) ∧ (n ≠ 0x000 → leaves (.crRd a n)) ∧
    leaves (.crWr a n) ∧ leaves (.crSet a n) ∧ leaves (.crClr a n) ∧ leaves (.lexrelWrite a)

/-! ## Queue operands -/

/-- R30, R31, R139-R141: an instruction pops its queue operands in order, and pushes its result, all at once and only when every
queue holds what it pops and has room for what it pushes; until then it parks. A result that returns later is pushed as a
reserved entry. A trapping instruction pops nothing. That a parked instruction which has made its request keeps what it has popped, and has taken the
entries that it is to push, and that no other pops from that queue meanwhile, is the model's choice (log 55). -/
def Obligations.QueueOperands : Prop :=
  ∀ (s : State) (d a q : Opd) (n : BitVec 12) (m : BitVec 3) (off : BitVec 9), s.placed → registers [d, a] → q.isQueue = true →
    s.snap = none → s.inPair = false →
    let k := queueOf q
    let l := s.me.queue k
    let room := s.me.occupied k < s.me.cap k ∧ (s.me.occupied k < s.me.qmin' k ∨ 1 ≤ s.me.poolRoom s.me.occupied)
    let free := s.me.claimed k = false
    let goes := fun i (q' : List QEntry) (work : List Work) => ∃ t, exec i s = .next t ∧ t.last = .completed ∧ t.mem = s.mem ∧
      t.work = s.work ++ work ∧ t.thread = s.after ∧ t.me.queue k = q' ∧ (∀ j, j ≠ k → t.me.queue j = s.me.queue j) ∧
      ∀ c, c ≠ s.curCore → t.core c = s.core c
    let later := fun n (x : VWord) => numbered n [s.returning (.q k s.nextId) x]
    let sends := fun (x : Word) => numbered s.nextId [s.returning (dstOf d) (x.setWidth 512)]
    let value := fun (e : QEntry) => e.val.setWidth 64
    let waits := fun i => (∀ e r, l = e :: r → e.missing ≠ 0 → Parks i s) ∧ (l = [] → Parks i s) ∧ (¬ free → Parks i s)
    let c := fun (p : Bool) => if p then (1 : Word) else 0
    let two : List ((Opd → Opd → Opd → Instr) × (Word → Word → Word)) := [(.add, (· + ·)), (.sub, (· - ·)), (.and, (· &&& ·)),
      (.or, (· ||| ·)), (.xor, (· ^^^ ·)), (.andn, fun x y => x &&& ~~~y), (.shl, fun x y => x <<< (y.toNat % 64)),
      (.shr, fun x y => x >>> (y.toNat % 64)), (.sra, fun x y => x.sshiftRight (y.toNat % 64)),
      (.rol, fun x y => x <<< (y.toNat % 64) ||| x >>> (64 - y.toNat % 64)), (.min, fun x y => if x.sle y then x else y),
      (.max, fun x y => if x.sle y then y else x), (.minu, fun x y => if x.ule y then x else y),
      (.maxu, fun x y => if x.ule y then y else x), (.mul, (· * ·)),
      (.mulh, fun x y => (x.signExtend 128 * y.signExtend 128).extractLsb' 64 64),
      (.mulhu, fun x y => (x.setWidth 128 * y.setWidth 128).extractLsb' 64 64), (.cmpEq, fun x y => c (x == y)),
      (.cmpNe, fun x y => c (x != y)), (.cmpLt, fun x y => c (x.slt y)), (.cmpGe, fun x y => c (!x.slt y)),
      (.cmpLtu, fun x y => c (x.ult y)), (.cmpGeu, fun x y => c (!x.ult y))]
    let one : List ((Opd → Opd → Instr) × (Word → Word)) := [(.clz, fun x => x.clz), (.ctz, fun x => x.reverse.clz),
      (.popc, fun x => BitVec.ofNat 64 ((List.range 64).countP x.getLsbD)), (.sextB, fun x => (x.extractLsb' 0 8).signExtend 64),
      (.sextH, fun x => (x.extractLsb' 0 16).signExtend 64), (.sextW, fun x => (x.extractLsb' 0 32).signExtend 64),
      (.zextB, fun x => x &&& 0xFF), (.zextH, fun x => x &&& 0xFFFF), (.zextW, fun x => x &&& 0xFFFFFFFF)]
    let lanes : List ((Opd → Opd → Opd → BitVec 3 → Instr) × (Lane → Lane → Lane)) := [(.vaddI, (· + ·)), (.vsubI, (· - ·)),
      (.vmulI, (· * ·)), (.vand, (· &&& ·)), (.vor, (· ||| ·)), (.vxor, (· ^^^ ·)), (.vandn, fun x y => x &&& ~~~y)]
    let mask := s.maskReg (m.setWidth 6)
    let laned := fun (v : VWord) (f : Lane → Lane → Lane) (x y : VWord) => lanesAre v 0 mask (fun j => f (lane x j) (lane y j))
    (∀ p ∈ two, let i := p.1
      (free → ∀ e r, l = e :: r → e.missing = 0 → goes (i d a q) r (sends (p.2 (s.scalar a) (value e))) ∧
        goes (i d q a) r (sends (p.2 (value e) (s.scalar a)))) ∧
      (free → ∀ e f r, l = e :: f :: r → e.missing = 0 → f.missing = 0 → goes (i d q q) r (sends (p.2 (value e) (value f)))) ∧
      waits (i d a q) ∧ waits (i d q a) ∧ (∀ e, l = [e] → Parks (i d q q) s) ∧
      (room → goes (i q d a) (l ++ [⟨s.nextId, 0, (p.2 (s.scalar d) (s.scalar a)).setWidth 512⟩]) []) ∧ (¬ room → Parks (i q d a) s)) ∧
    (∀ p ∈ one, let i := p.1
      (free → ∀ e r, l = e :: r → e.missing = 0 → goes (i d q) r (sends (p.2 (value e)))) ∧ waits (i d q) ∧
      (room → goes (i q a) (l ++ [⟨s.nextId, 0, (p.2 (s.scalar a)).setWidth 512⟩]) []) ∧ (¬ room → Parks (i q a) s)) ∧
    (s.provides [d, a] → ∀ p ∈ lanes, let i := p.1
      (free → ∀ e r, l = e :: r → e.missing = 0 →
        (∃ v, laned v p.2 (s.vector a) e.val ∧ goes (i d a q m) r (numbered s.nextId [s.returning (.v d.toNat mask.toNat) v])) ∧
        ∃ v, laned v p.2 e.val (s.vector a) ∧ goes (i d q a m) r (numbered s.nextId [s.returning (.v d.toNat mask.toNat) v])) ∧
      waits (i d a q m) ∧ waits (i d q a m) ∧ (¬ room → Parks (i q d a m) s) ∧
      (room → ∃ v, laned v p.2 (s.vector d) (s.vector a) ∧ goes (i q d a m) (l ++ [⟨s.nextId, 0, v⟩]) [])) ∧
    (crAssigned n.toNat = true → n ≠ 0x000 → n ≠ 0x010 → n ≠ 0x011 → room → goes (.crRd q n) (l ++ [⟨s.nextId, 1, 0⟩])
      (later (s.nextId + 1) ((s.crRead n.toNat).setWidth 512))) ∧
    (crAssigned n.toNat = true → ¬ room → Parks (.crRd q n) s) ∧
    (∀ p ∈ ([(.ldB, 1, .sign), (.ldH, 2, .sign), (.ldW, 4, .sign), (.ldD, 8, .zero), (.ldBu, 1, .zero), (.ldHu, 2, .zero),
        (.ldWu, 4, .zero), (.vld, 64, .raw)] : List ((Opd → Opd → BitVec 9 → Instr) × Nat × Extend)),
      let ea := s.scalar a + off.signExtend 64 * BitVec.ofNat 64 p.2.1
      let checked := s.checkAddr ea p.2.1 rawWindows true { r := true } false
      (¬ room → Parks (p.1 q a off) s) ∧ (room → ∀ e s', checked = (.error e, s') → Traps (p.1 q a off) s e ea 0) ∧
      (room → ∀ acc s', checked = (.ok acc, s') → s'.held acc.key p.2.1 false = false → ∃ t, exec (p.1 q a off) s = .next t ∧
        t.last = .completed ∧ t.mem = s'.mem ∧ t.thread = s'.after ∧ t.me.queue k = l ++ [⟨s'.nextId, 1, 0⟩] ∧
        (∀ j, j ≠ k → t.me.queue j = s.me.queue j) ∧ t.work = s'.work ++ numbered (s'.nextId + 1)
          [s'.item (s'.accessHome s.curCore acc) [] false (.load [acc] 0 0 none (.q k s'.nextId) p.2.2)])) ∧
    ∀ p ∈ ([(.stB, 1), (.stH, 2), (.stW, 4), (.stD, 8), (.vst, 64)] : List ((Opd → Opd → BitVec 9 → Instr) × Nat)),
      let ea := s.scalar a + off.signExtend 64 * BitVec.ofNat 64 p.2
      let checked := (s.pop k).2.checkAddr ea p.2 rawWindows true { w := true } false
      waits (p.1 q a off) ∧
      (free → ∀ e r, l = e :: r → e.missing = 0 →
        (∀ x s', checked = (.error x, s') → Traps (p.1 q a off) s x ea 0) ∧
        ∀ acc s', checked = (.ok acc, s') → s'.held acc.key p.2 true = false → ∃ t, exec (p.1 q a off) s = .next t ∧
          t.last = .completed ∧ t.mem = s'.mem ∧ t.thread = s'.after ∧ t.me.queue k = r ∧ (∀ j, j ≠ k → t.me.queue j = s.me.queue j) ∧
          t.work = s'.work ++ numbered s'.nextId [s'.item (s'.accessHome s.curCore acc) [] false
            (.store acc (e.val.toNat % 2 ^ (8 * p.2)) (2 ^ (8 * p.2) - 1))])

/-! ## Engines -/

/-- R312-R314, R318-R320: the events of the graph engines while the partition is not halted: an abort ends its graph, and a launch answers;
a drained wave ends the graph, or evaluates its control nodes, at most 32 in a row, and injects the tuple that they give; items join their
deques or wait at the input; steals; and the probes of parked emissions.
That an abort names a graph of the issuing core's die (log 79), what is halted (log 72), and what a launch waits for (log 81) are the
model's choices. -/
def Obligations.GraphEvents : Prop :=
  ∀ (s : State) (k : Nat) (w : Work),
    let goes := fun i (P : State → Prop) => ∃ t, exec i s = .next t ∧ t.mem = s.mem ∧ P t
    let deque := fun (t : State) (c g n : Nat) (d : Deque) => (t.core c).deque g n = some d
    (∀ die lo hi asid root priv dst, s.due k w → w.body = .launch die 0 lo hi asid root priv dst → s.halted w.core = false → s.distinct →
      let num := lo.toNat % 128
      ((s.graph die num).all (fun x => x.owner != s.partOf w.core) = true → goes (.launchCompletion k) (fun t =>
        t.findWork k = some (w.back dst (BitVec.ofNat 512 0x8000000000000005) none 0 []))) ∧
      (∀ x, s.graph die num = some x → x.owner = s.partOf w.core → goes (.launchCompletion k) (fun t =>
        t.findWork k = some (w.back dst 0 none 0 []) ∧ t.graph die num = none))) ∧
    (∀ die desc lo hi asid root priv dst, s.due k w → w.body = .launch die desc lo hi asid root priv dst → desc ≠ 0 →
      s.halted w.core = false → s.sharesFree none = true → s.distinct →
      (∃ t v, exec (.launchCompletion k) s = .next t ∧ t.findWork k = some (w.back dst v none 0 [])) ∧
      (desc.toNat % 64 ≠ 0 → goes (.launchCompletion k) (fun t =>
        t.findWork k = some (w.back dst (BitVec.ofNat 512 0x8000000000000001) none 0 []) ∧ t.dies = s.dies))) ∧
    (∀ die g x after, g < 128 → s.graph die g = some x → x.ok → x.after = some after → x.live = 0 → (s.partition x.owner).halted = false →
      let ends := fun (status : Word) => goes (.waveDrain die g) (fun t => t.graph die g = none ∧
        ∀ a, x.donef = some a → ∃ m ∈ t.work, m.body = .resolve a status x.asid x.root)
      (after = 0xFFFF → ends 0) ∧
      ∀ i, after = 0x8000 + i → i < x.nodes.length →
        (x.evaluate 32 i = none → ends 3) ∧
        ∀ arm n iter y, x.evaluate 32 i = some (arm, n, iter, y) →
          (arm.target = 0xFFFF → ends 0) ∧
          ∀ st core, x.stages[arm.target]? = some st → st.places[st.ptr]? = some core → goes (.waveDrain die g) (fun t =>
            (∃ m, t.work = s.work ++ [m] ∧
              m.body = .item core ⟨die * 128 + g, arm.target, n, iter, none, none, die * 1024, 0, false, false, false⟩) ∧
            ∃ z, t.graph die g = some z ∧ z.live = 1 ∧ z.drains = x.drains + 1 ∧ z.after = some arm.after ∧ z.nodes = y.nodes)) ∧
    (∀ dest it, s.due k w → w.body = .item dest it → s.halted (s.coreAt dest) = false →
      let c := s.core (s.coreAt dest)
      (c.deque it.graph it.stage = none → s.graphOf it.graph = none → goes (.itemArrival k) (fun t => t.findWork k = none ∧ t.cores = s.cores)) ∧
      (∀ d, c.deque it.graph it.stage = some d → c.input = [] → goes (.itemArrival k) (fun t => t.findWork k = none ∧
        (c.joins d = true → deque t (s.coreAt dest) it.graph it.stage { d with items := it.join :: d.items }) ∧
        (c.joins d = false → deque t (s.coreAt dest) it.graph it.stage d ∧ (t.core (s.coreAt dest)).input = [it])))) ∧
    (∀ v g n, s.due k w → w.body = .steal v g n → s.halted (s.coreAt v) = false →
      let c := s.core (s.coreAt v)
      let reply := fun (t : State) it => t.findWork k = some { w with home := stealHome w.core, body := .stolen g n it }
      (∀ d l it, c.deque g n = some d → d.items = l ++ [it] → l ≠ [] ∨ c.parkedTake g n = false → c.input = [] → goes (.stealRequest k) (fun t =>
        reply t (some { it with reserve := false }) ∧ deque t (s.coreAt v) g n { d with items := l })) ∧
      (∀ d it, c.deque g n = some d → d.items = [it] → c.parkedTake g n = true → goes (.stealRequest k) (fun t =>
        reply t none ∧ t.cores = s.cores)) ∧
      (∀ d, c.deque g n = some d → d.items = [] → goes (.stealRequest k) (fun t => reply t none ∧ t.cores = s.cores)) ∧
      (c.deque g n = none → goes (.stealRequest k) (fun t => reply t none ∧ t.cores = s.cores))) ∧
    (∀ g n it d, s.findWork k = some w → w.body = .stolen g n (some it) → k < s.nextId → s.halted (s.coreAt w.core) = false →
      let c := s.core (s.coreAt w.core)
      let round := c.steals.find? (fun r => r.graph == g && r.stage == n)
      let it' : Item := { it with age := min 0xFFFFFFFF (it.age + (c.clock - (round.map (·.sent)).getD c.clock)) }
      let slot := (round.map (·.slot)).getD w.slot
      let serves := (c.thread slot).takes g n = true ∧ d.items = []
      it.graph = g → it.stage = n → c.deque g n = some d → slot < 16 → goes (.stealReply k) (fun t => t.findWork k = none ∧
        (serves → (t.threadAt (s.coreAt w.core) slot).stolen = some it' ∧ deque t (s.coreAt w.core) g n d) ∧
        (¬ serves → c.input = [] → c.joins d = true → deque t (s.coreAt w.core) g n { d with items := it'.join :: d.items }) ∧
        (¬ serves → c.input = [] → c.joins d = false → (t.core (s.coreAt w.core)).input = [it']))) ∧
    (∀ g n r, s.findWork k = some w → w.body = .stolen g n none → k < s.nextId → s.halted (s.coreAt w.core) = false →
      (s.core (s.coreAt w.core)).steals = [r] → r.graph = g → r.stage = n →
      let c := s.core (s.coreAt w.core)
      let waiting := c.parkedTake g n = true ∧ (c.deque g n).any (fun d => d.items.isEmpty) = true
      goes (.stealReply k) (fun t => t.findWork k = none ∧ (t.core (s.coreAt w.core)).fsteal = c.fsteal + 1 ∧
        ((s.victims (s.coreAt w.core) g n).length ≤ r.asked + 1 → (t.core (s.coreAt w.core)).steals =
          [{ r with asked := 0, busy := false, until_ := c.clock + 256 }]) ∧
        ∀ v, (s.victims (s.coreAt w.core) g n)[r.asked + 1]? = some v →
          (waiting → ∃ m ∈ t.work, m.body = .steal v g n ∧ m.home = stealHome v) ∧
          (¬ waiting → (t.core (s.coreAt w.core)).steals = []))) ∧
    (∀ g n, s.findWork k = some w → w.body = .stolen g n none → s.halted (s.coreAt w.core) = false →
      (s.core (s.coreAt w.core)).steals = [] → goes (.stealReply k) (fun t => t.findWork k = none ∧
        (t.core (s.coreAt w.core)).fsteal = (s.core (s.coreAt w.core)).fsteal + 1)) ∧
    (∀ core r, (s.core core).steals = [r] → r.busy = false → r.until_ ≤ (s.core core).clock →
      (∀ v l d, (s.core core).parkedTake r.graph r.stage = true → (s.core core).deque r.graph r.stage = some d → d.items = [] → s.victims core r.graph r.stage = v :: l →
        goes (.stealBackoffExpiry core) (fun t => ∃ m, t.work = s.work ++ [m] ∧ m.body = .steal v r.graph r.stage ∧ m.core = core)) ∧
      ((s.core core).parkedTake r.graph r.stage = false ∨ ((s.core core).deque r.graph r.stage).all (fun d => !d.items.isEmpty) = true →
        goes (.stealBackoffExpiry core) (fun t => t.work = s.work ∧ (t.core core).steals = []))) ∧
    (∀ core p l, (s.core core).emitParked = p :: l → p.2.1 + 4096 ≤ (s.core core).clock → goes (.probeTimeout core) (fun t =>
      ∃ m, t.work = s.work ++ [m] ∧ m.home = probeHome (s.parkedGoal core p) ∧
        m.body = .probe core (s.parkedGoal core p) (s.parkedGoal core p))) ∧
    (∀ origin dest first, s.due k w → w.body = .probe origin dest first →
      let goal := s.parkedGoal (s.coreAt dest)
      ((s.core (s.coreAt dest)).emitParked = [] → goes (.probeToken k) (fun t => t.findWork k = none ∧ t.cores = s.cores)) ∧
      (∀ p l, (s.core (s.coreAt dest)).emitParked = p :: l → dest ≠ origin → goes (.probeToken k) (fun t =>
        t.findWork k = some { w with home := probeHome (goal p), body := .probe origin (goal p) first })) ∧
      (dest = origin → (∃ p ∈ (s.core (s.coreAt dest)).emitParked, goal p = first) → goes (.probeToken k) (fun t =>
        t.findWork k = some { w with home := probeHome first, body := .emergency origin first })) ∧
      (dest = origin → (∀ p ∈ (s.core (s.coreAt dest)).emitParked, goal p ≠ first) → goes (.probeToken k) (fun t =>
        t.findWork k = none ∧ t.cores = s.cores))) ∧
    ∀ origin dest d it, s.due k w → w.body = .emergency origin dest → s.halted (s.coreAt dest) = false → (s.core (s.coreAt dest)).deques = [d] →
      (s.core (s.coreAt dest)).input = [it] → it.sentBy origin = true →
      it.graph = d.graph → it.stage = d.stage → goes (.emergencyEntryRequest k) (fun t => t.findWork k = none ∧
        ((s.core (s.coreAt dest)).reserved < 4 → (t.core (s.coreAt dest)).input = [] ∧
          (t.core (s.coreAt dest)).deques = [{ d with items := { it.join with reserve := true } :: d.items }]) ∧
        (4 ≤ (s.core (s.coreAt dest)).reserved → t.cores = s.cores))

/-- R300, R305, R329-R332: a record's continuation is queued again once its seal and its notice have both arrived, in either
order; a free phrase unit grants the earliest request, or refuses it while its channel enters a lower state; and a run of a lease ends in its turn: in ranges that do not overlap it has written what the phrase gives of each element, its flags are
in its thread, and nothing else is written.
Which notices an engine keeps (log 43) and what is halted (log 72) are the model's choices. -/
def Obligations.RecordAndLeaseEvents : Prop :=
  ∀ (s : State) (k die : Nat) (w : Work),
    let goes := fun i (P : State → Prop) => ∃ t, exec i s = .next t ∧ P t
    let resumed := fun (t : State) (it : Item) => (t.die die).records = [] ∧
      ∀ x st core, s.graphOf it.graph = some x → x.stages[it.stage]? = some st → st.places[st.ptr]? = some core →
        ∃ m ∈ t.work, m.body = .item core it ∧ m.home = mailHome core
    (∀ it key, s.due k w → w.body = .seal it → w.home = engineHome die → die < 2 → s.graphHalted it.graph = false → it.record = some key →
      (s.graphOf it.graph = none → goes (.sealArrival k) (fun t => t.findWork k = none ∧ t.mem = s.mem ∧ t.dies = s.dies)) ∧
      (s.graphOf it.graph ≠ none → it.graph / 128 = die → (s.die die).records = [] → goes (.sealArrival k) (fun t =>
        t.findWork k = none ∧ t.mem = s.mem ∧ (t.die die).records = [⟨key, 0, some it, []⟩])) ∧
      (∀ reg, s.graphOf it.graph ≠ none → it.graph / 128 = die → (s.die die).records = [⟨key, reg, none, []⟩] →
        goes (.sealArrival k) (fun t => t.findWork k = none ∧ t.mem = s.mem ∧ (t.die die).records = [⟨key, reg, some it, []⟩])) ∧
      (∀ g, s.graphOf it.graph ≠ none → it.graph / 128 = die → (s.die die).records = [⟨key, 0, none, [g]⟩] →
        goes (.sealArrival k) (fun t => t.mem = s.mem ∧ resumed t it))) ∧
    (∀ key g, s.due k w → w.body = .notice key g → w.home = engineHome die → die < 2 → s.graphHalted g = false →
      (g = 256 → goes (.resumeNotice k) (fun t => t.findWork k = none ∧ t.mem = s.mem ∧ t.dies = s.dies)) ∧
      (g ≠ 256 → (s.die die).records = [] → goes (.resumeNotice k) (fun t =>
        t.findWork k = none ∧ t.mem = s.mem ∧ (t.die die).records = [⟨key, 0, none, [g]⟩])) ∧
      (∀ reg l, g ≠ 256 → (s.die die).records = [⟨key, reg, none, l⟩] → goes (.resumeNotice k) (fun t =>
        t.findWork k = none ∧ t.mem = s.mem ∧ (t.die die).records = [⟨key, reg, none, l ++ [g]⟩])) ∧
      (∀ it, g ≠ 256 → (s.die die).records = [⟨key, 0, some it, []⟩] →
        goes (.resumeNotice k) (fun t => t.mem = s.mem ∧ resumed t it))) ∧
    (∀ chan r, s.phraseReqs.find? (fun x => x.chan == chan) = some r → (∀ l ∈ s.phraseLeases, l.chan = chan → l.holdsUnit = false) →
      s.channelAwake chan = true → r.slot < 16 → s.enteringPower chan = true → goes (.phraseLeaseGrant chan) (fun t =>
        t.mem = s.mem ∧ t.phraseLeases = s.phraseLeases ∧ t.phraseReqs = s.phraseReqs.erase r ∧
        (t.threadAt r.core r.slot).pend = .answered 0)) ∧
    (∀ chan r, s.phraseReqs.find? (fun x => x.chan == chan) = some r → (∀ l ∈ s.phraseLeases, l.chan = chan → l.holdsUnit = false) →
      s.channelAwake chan = true → r.slot < 16 → s.enteringPower chan = false → goes (.phraseLeaseGrant chan) (fun t => t.mem = s.mem ∧ ∃ h, h ≠ 0 ∧
        (∀ l ∈ s.phraseLeases, l.handle ≠ h) ∧ t.phraseLeases = s.phraseLeases ++ [⟨h, chan, r.core, r.count, 0, 0, false⟩] ∧
        t.phraseReqs = s.phraseReqs.erase r ∧ (t.threadAt r.core r.slot).pend = .answered (BitVec.ofNat 64 h))) ∧
    ∀ run l, s.findWork k = some w → w.body = .phRun run → s.phraseLease run.lease = some l → s.clear w = true → s.regions = [] →
      (s.cluster (clusterOf w.core)).sectors = [] → (∀ x ∈ s.work, ∀ c y d m ws ts, x.body ≠ .writeBack c y d m ws ts) →
      (run.num ≠ l.done + 1 → exec (.phraseRunCompletion k) s = .fault .noSuchEvent) ∧
      (run.num = l.done + 1 → goes (.phraseRunCompletion k) (fun t => t.findWork k = none ∧
        t.phraseLease run.lease = some { l with done := run.num } ∧
        ∀ f, fmtOf run.fmt = some f → s.bad = [] → s.soft = [] → s.moved = [] → s.forwards = [] → w.slot < 16 →
          let n := widthOf run.fmt / 8
          let at_ := fun (r : List Access) j => (pieceAt r (j * n) n).key
          let apart := fun a b => a + n ≤ b ∨ b + n ≤ a
          let value := fun (r : List Access) j => if r = [] then Val.fin false 0 0 false else decode f (s.readNat (at_ r j) n)
          let x := fun j => run.phrase.eval f (fun i => value (if i = 0 then run.dst else if i = 1 then run.src1 else run.src2) j)
          let y := fun j => Machine.round f .rne false 0 (f32 (x j).1)
          (∀ j, j < run.count → ∀ r ∈ [run.dst, run.src1, run.src2], r ≠ [] → s.reachable w.core (at_ r j) = true) →
          (∀ i j, i < j → j < run.count → ∀ r ∈ [run.dst, run.src1, run.src2], r ≠ [] → apart (at_ run.dst i) (at_ r j)) →
          (t.threadAt w.core w.slot).fflags =
            (List.range run.count).foldl (fun g j => g ||| ((x j).2 ||| (y j).2)) (s.threadAt w.core w.slot).fflags ∧
          (s.memOk → (∀ j i, j < run.count → i < n → memGet t.mem (at_ run.dst j + i) = byteAt (y j).1 i) ∧
            ∀ a, (∀ j, j < run.count → a < at_ run.dst j ∨ at_ run.dst j + n ≤ a) → memGet t.mem a = memGet s.mem a)))

/-! ## Invalidations and migrations -/

/-- R264-R266, R280, R281: an invalidation drops the translations that it names, and is acknowledged once what used them has been
performed; a migration is issued by a write of cr.migd, copies its frame and forwards it; a release ends the forwarding; either
writes STATUS, and then sets its tag.
That an acknowledgement waits for every use of a named translation that is left (log 78), the grouping of the holders (log 40), and that a
migration is one step (log 46) are the model's choices. -/
def Obligations.TranslationEvents : Prop :=
  (∀ (s : State) (k : Nat) (w : Work),
    let goes := fun i (P : State → Prop) => ∃ t, exec i s = .next t ∧ P t
    (∀ kind holder asid lo len drain, s.findWork k = some w → w.body = .inval kind holder asid lo len drain →
      let keep := fun (l : List Trans) => l.filter (fun t => !((t.global || t.asid == asid) && decide (lo < t.lo + t.size) && decide (t.lo < lo + len)))
      let noted := fun (t : State) => t.mem = s.mem ∧ t.findWork k = some { w with
        arrived := some s.tick, body := .inval kind holder asid lo len (s.usersOf kind holder asid lo len) }
      let quiet := kind = 1 ∨ ∀ x ∈ (s.cluster (if kind = 0 then clusterOf holder else holder)).sectors, x.mask = 0 ∧ x.key % 64 = 0
      (w.arrived = none → kind = 0 → goes (.invalidationArrival k) (fun t => noted t ∧
        (t.core holder).itlb = keep (s.core holder).itlb ∧ (t.core holder).dtlb = keep (s.core holder).dtlb ∧
        (t.die (dieOf holder)).tlb = keep (s.die (dieOf holder)).tlb)) ∧
      (w.arrived = none → kind = 1 → goes (.invalidationArrival k) (fun t => noted t ∧ (t.die holder).tlb = keep (s.die holder).tlb)) ∧
      (w.arrived = none → 2 ≤ kind → goes (.invalidationArrival k) noted) ∧
      (w.arrived ≠ none → (∃ d ∈ drain, s.findWork d ≠ none) → exec (.invalidationAcknowledgement k) s = .fault .noSuchEvent) ∧
      (w.arrived ≠ none → s.usersOf kind holder asid lo len ≠ [] → exec (.invalidationAcknowledgement k) s = .fault .noSuchEvent) ∧
      (w.arrived ≠ none → (∀ d ∈ drain, s.findWork d = none) → s.usersOf kind holder asid lo len = [] → quiet → goes (.invalidationAcknowledgement k) (fun t =>
        t.findWork k = none ∧ t.mem = s.mem ∧ (kind = 2 → ∀ x ∈ (t.cluster holder).sectors, keep x.trans = x.trans)))) ∧
    (∀ old new size status tag, s.findWork k = some w → w.body = .migrate false old new size status tag none →
      let ends := fun (t : State) v => t.findWork k = some { w with arrived := none, body := .migrate false old new size status tag (some v) }
      (s.frameAbsent old size = true ∨ s.frameAbsent new size = true → goes (.migrate k) (fun t =>
        ends t 0x17 ∧ t.mem = s.mem ∧ t.forwards = s.forwards)) ∧
      (s.frameAbsent old size = false → s.frameAbsent new size = false → s.regions = [] → goes (.migrate k) (fun t =>
        ends t 0 ∧ t.forwards = s.forwards ++ [(old, new, size)] ∧
        (s.memOk → (∀ i, i < size → memGet t.mem (new + i) = memGet s.mem (old + i)) ∧
          ∀ a, (a < new ∨ new + size ≤ a) → memGet t.mem a = memGet s.mem a)))) ∧
    (∀ old new size status tag, s.findWork k = some w → w.body = .migrate true old new size status tag none →
      s.frameAbsent old size = false → goes (.release k) (fun t => t.mem = s.mem ∧ t.forwards = s.forwards.filter (fun f => f.1 != old) ∧
        t.findWork k = some { w with arrived := none, body := .migrate true old new size status tag (some 0) })) ∧
    ∀ release old new size status tag v, s.findWork k = some w → w.body = .migrate release old new size status tag (some v) → s.distinct →
      (w.arrived = none → goes (.migrationCompletion k) (fun t => WritesBytes s t (s.fwd status) 8 v (2 ^ 64 - 1) ∧
        t.findWork k = some { w with arrived := some s.tick })) ∧
      (w.arrived ≠ none → goes (.migrationCompletion k) (fun t => t.findWork k = none ∧ t.mem = s.mem ∧
        (t.core (s.coreAt w.core)).tags = (s.core (s.coreAt w.core)).tags ||| (1 : Word) <<< tag))) ∧
  ∀ (s : State) (a : Opd), s.placed → registers [a] → s.privileged = true → s.thread.pend = .none →
    let ea := s.scalar a
    let i : Instr := .crWr a 0x0A0
    (∀ e, s.blockAt ea 64 = .error e → Traps i s 0x6A ea 0) ∧
    ∀ acc x s', s.blockAt ea 64 = .ok acc → s.readNow acc = some (x, s') →
      (s.errorFree → migrationOf x = none → Traps i s 0x6A ea 0) ∧
      ∀ release old new size tag, migrationOf x = some (release, old, new, size, tag) →
        (s.tagSet tag = false → ∃ t, exec i s = .next t ∧ t.last = .parked ∧ KeepsBytes s t ∧ t.work = s.work ∧
          t.thread.pend = .item (x + 2 ^ 512 * ea.toNat)) ∧
        (s.tagSet tag = true → ∃ t w, exec i s = .next t ∧ t.last = .completed ∧ t.thread = s'.after ∧ KeepsBytes s t ∧
          t.me.tags = s.me.tags &&& ~~~((1 : Word) <<< tag) ∧ t.work = s.work ++ [w] ∧
          w.body = .migrate release old new size (s'.blockKey ea + 32) tag none)

/-! ## Pre-emption and debug -/

/-- R25, R334-R337, R339: a pre-emption is issued by a write of cr.psave; a save stops its cores, drains them, and writes and empties them; a
restore puts a saved core's threads, queues and tags onto its destination; a move ends in a forwarding entry, which UNFWD removes;
each writes STATUS, and then sets its tag.
The layout of a record is the device's own (log 10); what a restore gives and a save leaves are read in log 48 to 50. That a restored slot
of a halted partition stays stopped, as by the halt (log 47), and that a save waits for the packets of its job's colour whoever sent them
(log 72), are the model's choices. -/
def Obligations.Preemption : Prop :=
  (∀ (s : State) (a : Opd), s.placed → registers [a] → s.privileged = true → s.thread.pend = .none →
    let ea := s.scalar a
    let i : Instr := .crWr a 0x0B1
    (∀ e, s.blockAt ea 64 = .error e → Traps i s 0x6A ea 0) ∧
    ∀ acc x s1, s.blockAt ea 64 = .ok acc → s.readNow acc = some (x, s1) →
      let op := byteField x 18 18
      let tag := byteField x 19 19
      let n := byteField x 17 16
      (s.errorFree → preemptFieldsOk x = false → Traps i s 0x6A ea 0) ∧
      (preemptFieldsOk x = true → s.tagSet tag = false → ∃ t, exec i s = .next t ∧ t.last = .parked ∧ KeepsBytes s t ∧ t.work = s.work ∧
        t.thread.pend = .item (x + 2 ^ 512 * ea.toNat)) ∧
      (s.errorFree → preemptFieldsOk x = true → s.tagSet tag = true → ∀ s2, s1.coreList (BitVec.ofNat 64 (byteField x 15 8)) n = (none, s2) →
        Traps i s 0x6A ea 0) ∧
      (preemptFieldsOk x = true → s.tagSet tag = true → s.walksClear → ∀ list dests area s2 s3 s4,
        s1.coreList (BitVec.ofNat 64 (byteField x 15 8)) n = (some (some list), s2) →
        (if op = 1 ∨ op = 2 then s2.coreList (BitVec.ofNat 64 (byteField x 31 24)) (byteField x 33 32) else (some (some []), s2)) =
          (some (some dests), s3) →
        (if op = 3 then (.ok [], s3) else s3.translateAll (byteField x 7 0) ((n + 1) * recordSize)
          (if op = 1 then { r := true } else { r := true, w := true })) = (.ok area, s4) →
        ∃ t w, exec i s = .next t ∧ t.last = .completed ∧ t.thread = s4.after ∧ KeepsBytes s t ∧
          t.me.tags = s.me.tags &&& ~~~((1 : Word) <<< tag) ∧ t.work = s.work ++ [w] ∧
          w.body = .preempt op area list dests (byteField x 23 20) (s4.blockKey ea + 40) tag 0 none)) ∧
  ∀ (s : State) (k op : Nat) (w : Work) (area : List Access) (list dests : List Nat) (spuse status tag stage : Nat),
    s.findWork k = some w → s.distinct → k < s.nextId →
    let body := fun o => w.body = .preempt o area list dests spuse status tag stage none
    let goes := fun i (P : State → Prop) => ∃ t, exec i s = .next t ∧ P t
    let at_ := fun (t : State) n v => t.findWork k = some (w.preemptAt n v)
    let event : Instr := if op = 0 then .save k else .move k
    let saves := op = 0 ∨ op = 2
    let calm := s.regions = [] ∧ (s.cluster (clusterOf w.core)).sectors = [] ∧ ∀ x ∈ s.work, ∀ c y d m ws ts, x.body ≠ .writeBack c y d m ws ts
    (saves → body op → stage = 0 → (∃ c ∈ list, s.present c = false) → goes event (fun t => at_ t 3 (some 0x17) ∧ t.mem = s.mem ∧ t.cores = s.cores)) ∧
    (saves → body op → stage = 0 → (∀ c ∈ list, s.present c = true) → goes event (fun t => at_ t 1 none ∧ t.mem = s.mem ∧
      (∀ c j, c ∈ list → j < 16 → (s.threadAt c j).slot = .ready → (s.threadAt c j).pend = .none → (s.threadAt c j).pendTrap = none →
        (s.threadAt c j).stopping = none → s.outstanding c j = false →
        (t.threadAt c j).slot = .stopped ∧ (t.threadAt c j).mark = .bySave ∧ (t.threadAt c j).pc = (s.threadAt c j).pc) ∧
      ∀ c, c ∉ list → t.core c = s.core c)) ∧
    (saves → body op → stage = 1 → s.someSlot list (fun t => t.running && t.stopping.isNone) = true → goes event (fun t =>
      t.findWork k = some w ∧ t.mem = s.mem ∧ ∀ c, c ∉ list → t.core c = s.core c)) ∧
    (saves → body op → stage = 1 → s.someSlot list (fun t => t.running && t.stopping.isNone) = false →
      s.someSlot list Thread.running = true ∨ s.drained k list = false → exec event s = .fault .noSuchEvent) ∧
    (saves → body op → stage = 1 → s.someSlot list Thread.running = false → s.drained k list = true → goes event (fun t => at_ t 2 none ∧ t.mem = s.mem ∧
      (∀ l ∈ t.phraseLeases, l.core ∈ list → l.ended = true) ∧ ∀ c j, c ∈ list → j < 16 → (t.array c).holder ≠ some (c, j))) ∧
    (body 0 → stage = 2 → s.drained k list = true → s.networkQuiet w.core = true → calm → (∀ c j, (s.threadAt c j).monitors = []) →
      goes (.save k) (fun t => at_ t 3 (some 0) ∧ ∀ c ∈ list, (t.core c).threads = Vector.replicate 16 {} ∧
        (t.core c).queues = Vector.replicate 8 [] ∧ ∃ v ∈ t.saves, v.from_ = c ∧ (w.core ∉ list → v.core = s.core c))) ∧
    (body 2 → stage = 2 → s.drained k list = true → s.networkQuiet w.core = true → calm → ∀ c d, list = [c] → dests = [d] →
      goes (.move k) (fun t => ∃ v, at_ t 3 (some v) ∧ (v = 0 → (c, d) ∈ t.moved ∧ (t.core c).threads = Vector.replicate 16 {}))) ∧
    (body 1 → calm → (∃ d ∈ dests, s.present d = false) → goes (.restore k) (fun t => at_ t 3 (some 0x17) ∧ KeepsBytes s t)) ∧
    (body 1 → calm → s.power = [] → s.entering = [] → ∀ (c d x : Nat) (v : Saved) (s' : State), list = [c] → dests = [d] → s.present d = true →
      s.records w area 1 = ([x], s') → digestOk x = true → s'.findSaved x = some v → s'.quiescent d = true → v.core.mode = (s'.core d).mode →
      let free := (List.range (contexts v.core.mode)).filter (fun j => (s'.threadAt d j).slot == .empty)
      v.live.length ≤ free.length → goes (.restore k) (fun t => at_ t 3 (some 0) ∧
        (t.core d).queues = v.core.queues ∧ (t.core d).tags = v.core.tags ∧
        ∀ n i j : Nat, v.live[n]? = some i → free[n]? = some j → let y := v.core.thread i
          let z := t.threadAt d j
          z.pc = y.pc ∧ z.s = y.s ∧ z.v = y.v ∧ z.m = y.m ∧ z.tpc = y.tpc ∧ (y.slot = .halted → z.slot = .halted) ∧
            (y.slot = .stopped → y.mark = .byControl → z.slot = .stopped) ∧
            (y.slot = .stopped → y.mark ≠ .byControl → if s.halted d then z.slot = .stopped ∧ z.mark = .byHalt else z.slot = .ready))) ∧
    (body 3 → (∀ c ∈ list, s.present c = true) → goes (.unfwd k) (fun t => at_ t 3 (some 0) ∧ t.mem = s.mem ∧
      t.moved = s.moved.filter (fun p => !list.contains p.1))) ∧
    (body 3 → (∃ c ∈ list, s.present c = false) → goes (.unfwd k) (fun t => at_ t 3 (some 0x17) ∧ t.mem = s.mem ∧ t.moved = s.moved)) ∧
    ∀ v, w.body = .preempt op area list dests spuse status tag stage (some v) →
      (w.arrived = none → goes (.preemptionCompletion k) (fun t => WritesBytes s t (s.fwd status) 8 v (2 ^ 64 - 1) ∧
        t.findWork k = some { w with arrived := some s.tick })) ∧
      (w.arrived ≠ none → goes (.preemptionCompletion k) (fun t => t.findWork k = none ∧ t.mem = s.mem ∧
        (t.core (s.coreAt w.core)).tags = (s.core (s.coreAt w.core)).tags ||| (1 : Word) <<< tag))

/-- R25, R338, R339: a halt stops every slot of its partition between two instructions, once its results have returned, and a resume
starts exactly those that the halt stopped; other partitions go on. A halt or a resume is the earliest that has been sent for its
partition, or, as number 0, the runtime's own first. Which cores a partition has is the model's choice (log 72). -/
def Obligations.DebugHalts : Prop :=
  ∀ (s : State) (k : Nat), let sent := fun b p =>
      (k ≠ 0 ∧ (s.work.find? (s.debugs p)).map (·.id) = some k ∧ ∃ w, s.findWork k = some w ∧ w.body = .debug b ∧ s.partOf w.core = p) ∨
      (k = 0 ∧ ∃ l r, s.inputs = l ++ .debugger p b :: r ∧ ∀ q, .debugger q b ∉ l)
    (∀ p, sent true p → ∃ t, exec (.debugHalt k) s = .next t ∧ t.mem = s.mem ∧ (t.partition p).halted = true ∧
      (∀ q, q ≠ p → t.partition q = s.partition q) ∧ ∀ c, (s.partOf c ≠ p → t.core c = s.core c) ∧
      ∀ j, s.partOf c = p → j < 16 → (s.threadAt c j).slot = .ready → (s.threadAt c j).pend = .none → (s.threadAt c j).pendTrap = none →
        (s.threadAt c j).stopping = none → (t.threadAt c j).pc = (s.threadAt c j).pc ∧ (t.threadAt c j).s = (s.threadAt c j).s ∧
        (s.outstanding c j = false → (t.threadAt c j).slot = .stopped ∧ (t.threadAt c j).mark = .byHalt) ∧
        (s.outstanding c j = true → (∀ w ∈ s.work, w.arrived = none) →
          (t.threadAt c j).slot = .ready ∧ (t.threadAt c j).stopping = some .byHalt)) ∧
    (∀ p, sent false p → (∀ c j, (s.threadAt c j).withdrawn = []) → ∃ t, exec (.debugResume k) s = .next t ∧ t.mem = s.mem ∧
      (t.partition p).halted = false ∧ (∀ q, q ≠ p → t.partition q = s.partition q) ∧ ∀ c, (s.partOf c ≠ p → t.core c = s.core c) ∧
      ∀ j, s.partOf c = p → j < 16 → let x := s.threadAt c j
        (x.slot = .stopped → x.mark = .byHalt → (t.threadAt c j).slot = .ready ∧
          (t.threadAt c j).pc = x.pc ∧ (t.threadAt c j).s = x.s) ∧
        (x.stopping ≠ some .byHalt → x.slot ≠ .stopped ∨ x.mark ≠ .byHalt → t.threadAt c j = x)) ∧
    ((∀ p, ¬ sent true p) → exec (.debugHalt k) s = .fault .noSuchEvent) ∧
    ((∀ p, ¬ sent false p) → exec (.debugResume k) s = .fault .noSuchEvent)

/-! ## The package -/

/-- R1, R294-R296, R298: boot: power-on reset; the port, 1 where port 0 has had no link since reset; the parts of an image come one
after another, a whole image that is not accepted is answered with status 1, and one that is starts discovery; a tile that is met
first is numbered and passes discovery on; data images go down the tree, and their acknowledgements up; the last one opens the
ports. The capability list begins with the clock rates.
The content of a BOOT message, the shape of the tree, and that the list begins with the clock rates are the model's choices (logs 14,
53, 51). -/
def Obligations.Boot : Prop :=
  ∀ (s : State) (k : Nat) (w : Work), let goes := fun i (P : State → Prop) => ∃ t, exec i s = .next t ∧ P t
    let posted := fun (t : State) (r : Reply) => if s.paused.contains r.asker.port then t.replies = s.replies ∧ t.outbox = s.outbox ++ [r]
      else t.replies = s.replies ++ [r] ∧ t.outbox = s.outbox
    s.capContents.head? = some ⟨1, natBytes 2700000 4 ++ natBytes 2700000 4 ++ natBytes 1600000 4⟩ ∧
    (s.inputs.contains .reset = true → goes .powerOnReset (fun t => t.cores = [] ∧ t.mem = [] ∧ t.work = [] ∧ t.regions = [] ∧
      t.boot = .waiting ∧ t.bootPort = 0 ∧ t.linked0 = !s.deadPorts.contains 0 ∧ t.fuses = s.fuses ∧ t.partitions = [] ∧ t.partitionOf = s.partitionOf ∧
      t.inputs = s.inputs.erase .reset)) ∧
    (s.boot = .waiting → s.bootPort = 0 → s.linked0 = false → 2 ^ 32 ≤ (s.core 0).clock →
      exec .bootPortTimeout s = .next { s with bootPort := 1 }) ∧
    (s.linked0 = true → exec .bootPortTimeout s = .fault .noSuchEvent) ∧
    (∀ m part code data, s.litarAt k = some m → m.body = .boot part code data → s.boot = .waiting → m.port = s.bootPort →
      m.clean = true → m.typed = true →
      let image := s.bootImage ++ part
      (imageWhole image = false → goes (.boot k) (fun t => t.boot = .waiting ∧ t.bootImage = image ∧ t.replies = s.replies ∧
        t.inputs = s.inputs.eraseIdx k ∧ t.mem = s.mem ∧ t.cores = s.cores ∧ t.work = s.work)) ∧
      (imageWhole image = true → s.imageOk image = false → goes (.boot k) (fun t => posted t ⟨m.asker, 1, []⟩ ∧
        t.inputs = s.inputs.eraseIdx k ∧ t.boot = .waiting ∧ t.bootImage = [] ∧ t.mem = s.mem ∧ t.cores = s.cores)) ∧
      (imageWhole image = true → s.imageOk image = true → goes (.boot k) (fun t => t.boot = .discovering ∧
        t.version = fieldOf image 7 4 ∧ t.replies = s.replies ∧ t.mem = s.mem ∧ ∃ x, t.work = s.work ++ [x] ∧ x.body = .discovery 0 0 0))) ∧
    (∀ tile x y, s.findWork k = some w → w.body = .discovery tile x y →
      (s.coords.any (fun c => c.1 == tile) = false → goes (.discoveryPacket k) (fun t => t.coords = (tile, x, y) :: s.coords ∧ t.mem = s.mem ∧
        ∀ n ∈ neighbours tile, ∃ v ∈ t.work, v.body = .discovery n.1 (x + n.2.1) (y + n.2.2))) ∧
      (s.coords.any (fun c => c.1 == tile) = true → (∃ v ∈ s.work, v.id ≠ k ∧ ∃ a b c, v.body = .discovery a b c) →
        goes (.discoveryPacket k) (fun t => t = s.dropWork k))) ∧
    (∀ tile dest off data, s.findWork k = some w → w.body = .image tile dest off data → s.distinct →
      (tile ≠ s.tileOfCore dest → goes (.imageDelivery k) (fun t => t.mem = s.mem ∧
        t.findWork k = some { w with body := .image (downward tile (s.tileOfCore dest)) dest off data })) ∧
      (tile = s.tileOfCore dest → s.moved = [] → s.bad = [] → off + data.length ≤ 2 ^ 18 → dest < 2048 → goes (.imageDelivery k) (fun t =>
        t.findWork k = some { w with body := .imageAck tile dest } ∧
        (s.memOk → ∀ i b, data[i]? = some b → memGet t.mem (scratchKey dest off + i) = b)))) ∧
    (∀ tile dest, s.findWork k = some w → w.body = .imageAck tile dest →
      (tile ≠ 0 → goes (.imageAcknowledgement k) (fun t => t.mem = s.mem ∧ t.findWork k = some { w with body := .imageAck (upward tile) dest })) ∧
      (tile = 0 → s.awaiting.erase dest ≠ [] → goes (.imageAcknowledgement k) (fun t => t.mem = s.mem ∧ t.findWork k = none ∧
        t.awaiting = s.awaiting.erase dest ∧ t.boot = s.boot)) ∧
      (tile = 0 → s.awaiting.erase dest = [] → goes (.imageAcknowledgement k) (fun t => t.boot = .running ∧
        posted t ⟨s.bootReply, 0, []⟩ ∧ ∃ v, t.capRecords = layOut v 0 s.capContents)))

/-- R296-R300: the control protocol: each request is performed in the order of SEQ and answered under it, and its answer waits while
its port's priority 3 is paused; a message of an undefined type is answered with status 2 and has no other effect; other frames
are dropped; flits arrive in order; and the power states of channels.
The content of the messages' bodies (log 14), that a message waits while the partition it names is halted and a flit while any is
(log 72), and that a launch waits while items are held at a channel of a region (log 81), are the model's choices. -/
def Obligations.ControlProtocol : Prop :=
  ∀ (s : State) (k : Nat) (m : Litar), let goes := fun i (P : State → Prop) => ∃ t, exec i s = .next t ∧ P t
    let drop : State := { s with inputs := s.inputs.eraseIdx k }
    let waits := fun (r : Reply) => s.paused.contains r.asker.port
    let reply := fun (r : Reply) => Host.Outcome.next (if waits r then { drop with outbox := s.outbox ++ [r] }
      else { drop with replies := s.replies ++ [r] })
    let posted := fun (t : State) (l : List Reply) => t.replies = s.replies ++ l.filter (fun r => !waits r) ∧
      t.outbox = s.outbox ++ l.filter waits
    let answered := fun (t : State) r => posted t [r] ∧ t.inputs = s.inputs.eraseIdx k
    let plain := s.regions = [] ∧ s.power = [] ∧ s.entering = [] ∧ s.moved = [] ∧ s.forwards = [] ∧ s.bad = []
    let takes := fun (t : State) key (l : List Byte) => s.memOk → (∀ i b, l[i]? = some b → memGet t.mem (key + i) = b) ∧
      ∀ a, (a < key ∨ key + l.length ≤ a) → memGet t.mem a = memGet s.mem a
    (s.request k = none → ∀ i ∈ ([.launch k, .map k, .copy k, .query k, .quote k, .power k] : List Instr), exec i s = .fault .noSuchEvent) ∧
    (s.request k = some m →
      (∀ die desc lo hi asid root priv, m.body = .launch die desc lo hi asid root priv → s.sharesFree none = true →
        let plan := drop.graphPlan ⟨m.part, die * 1024, asid, root, priv⟩ desc.toNat
        (∀ s', plan = (none, s') → exec (.launch k) s = reply ⟨m.asker, 0, natBytes 0x8000000000000001 8⟩) ∧
        (∀ p s', plan = (some p, s') → s'.canStart p = true → (∃ n, 1 ≤ n ∧ n ≤ 64 ∧ s'.graph die n = none) →
          goes (.launch k) (fun t => ∃ n, 1 ≤ n ∧ n ≤ 64 ∧ s'.graph die n = none ∧ ⟨m.asker, 0, natBytes n 8⟩ ∈ t.replies ++ t.outbox))) ∧
      (∀ key l devices, m.body = .map [(key, l)] devices → plain → goes (.map k) (fun t => answered t ⟨m.asker, 0, []⟩ ∧ takes t key l)) ∧
      (∀ devices, m.body = .map [] devices → s.regions = [] → goes (.map k) (fun t => answered t ⟨m.asker, 0, []⟩ ∧ t.mem = s.mem ∧
        t.devices = devices.foldl (fun l d => sset l d.1 d.2) s.devices)) ∧
      (∀ key l, m.body = .copyIn key l → plain → goes (.copy k) (fun t => answered t ⟨m.asker, 0, []⟩ ∧ takes t key l)) ∧
      (∀ key n, m.body = .copyOut key n → plain → exec (.copy k) s = reply ⟨m.asker, 0, natBytes (s.readNat key n) n⟩) ∧
      (m.body = .query → exec (.query k) s = reply ⟨m.asker, 0, s.capRecords⟩) ∧
      (∀ nonce, m.body = .quote nonce → exec (.quote k) s =
        reply ⟨m.asker, 0, Config.ed448Sign (Config.shake256 (nonce.toList ++ s.digest ++ s.capRecords) 64)⟩) ∧
      (∀ chan, m.body = .power chan .active → chan < 256 → s.deadChannels.contains chan = false → goes (.power k) (fun t =>
        t.channelAwake chan = true ∧ t.mem = s.mem ∧ ⟨m.asker, 0, []⟩ ∈ t.replies ++ t.outbox)) ∧
      (∀ chan target, m.body = .power chan target → target ≠ .active → chan < 256 → s.deadChannels.contains chan = false →
        exec (.power k) s = .next { drop with entering := s.entering ++ [⟨chan, target, m.asker, false⟩] })) ∧
    (s.litarAt k = some m → m.clean = false ∨ m.defined = false → s.holdsFrame m = false →
      exec (.undefinedLitarMessage k) s = reply ⟨m.asker, 2, []⟩) ∧
    (s.litarAt k = some m → m.clean = true → m.defined = true → m.typed = false → s.holdsFrame m = false →
      goes (.undefinedLitarMessage k) (fun t => t.mem = s.mem ∧ t.cores = s.cores ∧ t.work = s.work ∧ ∃ v, answered t ⟨m.asker, v, []⟩)) ∧
    (∀ port, s.inputs[k]? = some (.foreign port) → exec (.nonLitarFrame k) s = .next drop) ∧
    (∀ port, s.inputs[k]? = some (.pfc port true) → exec (.priorityFlowControl k) s =
      .next { drop with paused := port :: s.paused.filter (· != port) }) ∧
    (∀ port, s.inputs[k]? = some (.pfc port false) → exec (.priorityFlowControl k) s =
      .next { drop with paused := s.paused.filter (· != port), outbox := s.outbox.filter (fun r => r.asker.port != port),
                        replies := s.replies ++ s.outbox.filter (fun r => r.asker.port == port) }) ∧
    (∀ port num, s.inputs[k]? = some (.linkDown port num) → goes (.linkLoss k) (fun t => t.mem = s.mem ∧ t.cores = s.cores ∧
      (if port then num ∈ t.deadPorts ∧ t.deadLinks = s.deadLinks else num ∈ t.deadLinks ∧ t.deadPorts = s.deadPorts))) ∧
    (∀ link seq write, s.inputs[k]? = some (.scedy link seq write) →
      let n := sget s.flits link 0
      (n < seq ∨ s.partitions.any (·.2.halted) = true → exec (.scedyFlit k) s = .fault .noSuchEvent) ∧
      (s.partitions.any (·.2.halted) = false → s.deadLinks.contains link = false →
        (seq < n → exec (.scedyFlit k) s = .next drop) ∧
        (seq = n → write = none → exec (.scedyFlit k) s = .next { drop with flits := sset s.flits link (n + 1) }) ∧
        (∀ key l, seq = n → write = some (key, l) → plain → goes (.scedyFlit k) (fun t => sget t.flits link 0 = n + 1 ∧ takes t key l)))) ∧
    (∀ chan e, s.entering.find? (fun x => x.chan == chan) = some e → s.regions = [] →
      (e.applied = false → goes (.channelPowerEntry chan) (fun t => t.mem = s.mem ∧ t.power = s.power ∧
        t.entering = s.entering.map (fun x => if x = e then { e with applied := true } else x))) ∧
      (e.applied = true → s.phraseLeases = [] → goes (.channelPowerEntry chan) (fun t => t.mem = s.mem ∧
        t.power = (chan, e.target) :: s.power.filter (fun p => p.1 != chan) ∧ t.entering = s.entering.erase e ∧
        posted t [⟨e.request, 0, []⟩]))) ∧
    ∀ chan, s.channelAwake chan = false → (∃ w ∈ s.work, channelHomed w.home = some chan) ∨ (∃ r ∈ s.phraseReqs, r.chan = chan) → goes (.channelWake chan) (fun t =>
      t.channelAwake chan = true ∧ t.mem = s.mem ∧ t.work = s.work ∧
      posted t ((s.entering.filter (fun e => e.chan == chan)).map (fun e => ⟨e.request, 3, []⟩)))

/-! ## Steps -/

/-- R20-R22, R27, R36, R105, R133, R197: in the cycle of a core, the slot whose turn it is issues what stands at its address: the words
that it parked on, or those fetched from its instruction cache; a lone word, a jl.l, or a pair; a word that is no instruction is
illegal, unless it would transfer to a misaligned target. An address that cannot be fetched traps with 0x10, with the address in cr.tpc and
cr.taddr, and a block that no cache holds stalls. A step at which an event is due performs that.
Which event or core comes first is the model's schedule (log 5); that an instruction which parks with its request made has taken the entries
that it pushes (log 55), and that fetches which follow one another in a block read one copy of it (log 112), are the model's choices. -/
def Obligations.StepRunsDecoded : Prop :=
  ∀ (s : State) (core slot : Nat), s.sched = [] → (∀ t, s.firstEvent = some t → step s = .next { t with tick := t.tick + 1 }) ∧
    let s0 : State := { s with turn := s.turn + 1 }
    let s1 : State := { s0.at_ core slot with last := .completed }
    let pc := s1.thread.pc
    let u := s1.thread
    let found := fun (l : List (BitVec 32)) (s2 : State) => (u.latch = [] ∧ ∃ s3, s1.fetchWords = (.ok l, s3) ∧ s2 = s3.fetched) ∨ (u.latch = l ∧ l ≠ [] ∧ s2 = s1)
    let ends := fun (l : List (BitVec 32)) (o : Out) => step s = advance (match afterTurn l o with
      | .next t => .next (t.endCycle core (some slot) (t.last != .parked))
      | o => o)
    let lone := fun (i : Instr) (s2 : State) => match exec i s2 with | .next t => Host.Outcome.next (s2.promise t i.uses) | o => o
    s.firstEvent = none → s.nextUnit = .core core → (s.core core).boundary = false → s0.pick core = some slot →
      (∀ x i s2, found [x] s2 → decodeWord x = .ok i → i.p = false → s2.mustWait i.w = false → ends [x] (lone i.instr s2)) ∧
      (∀ x i s2, found [x] s2 → decodeWord x = .ok i → i.p = false → s2.mustWait i.w = true → ends [x] (.next s2.park)) ∧
      (∀ x s2, found [x] s2 → (∀ i, decodeWord x = .ok i → i.p = true) →
        let i := decodeFields (Machine.Fields.transfer (splitWord (clearP x)))
        ((∀ j, i = .ok j → ∀ a b, trapOf (exec j.instr s2) ≠ some (0x03, a, b)) → ends [x] (exec .illegalInstruction s2)) ∧
        ∀ j a b, i = .ok j → trapOf (exec j.instr s2) = some (0x03, a, b) → ends [x] (.next (s2.trap 0x03 a))) ∧
      (∀ x y i s2, found [x, y] s2 → isJlL x = true → decodeJlL x y = .ok i → s2.mustWait i.w = false → ends [x, y] (lone i.instr s2)) ∧
      (∀ x y i j s2, found [x, y] s2 → isJlL x = false → decodeWord x = .ok i → decodeWord y = .ok j → isAClass y = true → j.p = false →
        ends [x, y] (issuePair (i.w || j.w) i.instr j.instr s2)) ∧
      (∀ x y s2, s1.fetch pc = (.word x y, s2) → s1.fetchWords = (.ok (if takesNext pc x then [x, y] else [x]), s2)) ∧
      (∀ c s2, u.latch = [] → s1.fetch pc = (.trap c, s2) → ends [] (.next (s2.trapAt pc c pc 0))) ∧
      (∀ block tr s2, u.latch = [] → s1.fetch pc = (.stall block tr, s2) → ends [] (.next (s2.startFetch block tr))) ∧
      (pc.toNat / 2 ^ 56 ≠ 0 → s1.fetch pc = (.trap 0x10, s1)) ∧
      let walk := s1.translate core u.asid.toNat u.pgroot.toNat (!(u.priv || u.hm)) true pc.toNat { x := true }
      (∀ e s2, pc.toNat / 2 ^ 56 = 0 → walk = (.error e, s2) → s1.fetch pc = (.trap 0x10, s2)) ∧
      ∀ tr s2, pc.toNat / 2 ^ 56 = 0 → walk = (.ok tr, s2) →
        let key := tr.keyOf pc.toNat
        let words := fun (b : VWord) => Fetched.word (b.extractLsb' (8 * (key % 64)) 32) (b.extractLsb' (8 * (key % 64 + 4)) 32)
        (∀ b, s2.thread.line = some (key / 64 * 64, b) → s1.fetch pc = (words b, s2)) ∧
        ((∀ b, s2.thread.line ≠ some (key / 64 * 64, b)) →
          (∀ b, s2.sched = [] → s2.iparity = [] → heldBlock s2.me.icache (key / 64 * 64) = some b →
            s1.fetch pc = (words b, s2.setThread { s2.thread with line := some (key / 64 * 64, b) })) ∧
          ((s2.levels.all fun l => (heldBlock l.2 (key / 64 * 64)).isNone) = true →
            s1.fetch pc = (if s2.reachable core key then .stall (key / 64 * 64) tr else .trap 0x17, s2)))

/-- R22, R31, R36: a pair whose queues are ready: the C-class word and the A-class word both complete, the A-class word reading its
sources as they stood before the pair; when either traps, neither has an effect; before trap, brk and halt the A-class word
completes. A pair whose queues are not all ready parks, and takes only a trap that does not wait for them.
Which of two traps is taken (log 18); that a pair which parks with its request made takes a trap of its A-class word first, and else keeps
what that word reads and pops, and the room for what both push, until it is tried again (log 55); and that traps are judged before it
parks for its queues (log 63), are the model's choices. -/
def Obligations.PairsIssue : Prop :=
  (∀ (s : State) (c a : Instr), s.thread.pend.engaged = false → s.me.queuesReady (c.uses ++ a.uses) = false →
    let traps := fun e x y => issuePair false c a s = .next (({ s with snap := none, inPair := true } : State).trap e x y)
    (∀ e x y, trapOf (exec c s) = some (e, x, y) → Machine.Instr.trapsFirst c e = true → traps e x y) ∧
    ((∀ e x y, trapOf (exec c s) = some (e, x, y) → Machine.Instr.trapsFirst c e = false) →
      (s.me.beyondMode (c.uses ++ a.uses) = true → trapOf (exec c s) ≠ none ∨ s.me.beyondMode a.uses = true → traps 0x02 0 0) ∧
      (s.me.beyondMode (c.uses ++ a.uses) = false → issuePair false c a s = .next s.park))) ∧
  ∀ (s : State) (c a : Instr), s.thread.pend.engaged = true ∨ s.me.queuesReady (c.uses ++ a.uses) = true →
    let first : State := { s with snap := none, inPair := true }
    let second := fun (x : Thread) (t : State) => ({ t with snap := some x, inPair := false } : State)
    let whole := fun (t : State) => Host.Outcome.next ({ t with snap := none, inPair := false } : State)
    let old := s.thread.asRead
    let next := fun (t : State) =>
      let u := (s.yieldTo t a).setMe ((s.yieldTo t a).me.putBack (s.thread.heldFor a))
      u.setThread { u.thread with promised := s.thread.keptFor c }
    (Machine.Instr.trapping c = false →
      (∀ t, exec c first = .next t → t.last = .completed → t.thread.slot = .ready → ∀ u, exec a (second old (next t)) = .next u →
        (u.last = .completed → issuePair false c a s = whole u) ∧
        (∀ e x y, u.last = .trapped e x y → issuePair false c a s = whole (first.trap e x y)) ∧
        (u.last = .parked → issuePair false c a s = whole s.park)) ∧
      (∀ t, exec c first = .next t → t.last = .completed → t.thread.slot ≠ .ready → issuePair false c a s = whole t) ∧
      (∀ t e x y, exec c first = .next t → t.last = .trapped e x y → s.me.beyondMode a.uses = false → issuePair false c a s = whole t) ∧
      (∀ t, exec c first = .next t → t.last = .parked →
        (s.thread.pend.engaged = true → issuePair false c a s = whole t) ∧
        (s.thread.pend.engaged = false → t.thread.pend.engaged = true →
          (∀ e x y, trapOf (exec a (second old (s.asRequested t))) = some (e, x, y) → issuePair false c a s = whole (first.trap e x y)) ∧
          (trapOf (exec a (second old (s.asRequested t))) = none → issuePair false c a s = whole (t.holdPair old c a))) ∧
        (s.thread.pend.engaged = false → t.thread.pend.engaged = false → t.nextId = s.nextId → s.me.beyondMode a.uses = false →
          issuePair false c a s = whole t))) ∧
    (Machine.Instr.trapping c = true → s.outstanding s.curCore s.curSlot = false → ∀ t, exec a (second s.thread s) = .next t →
      (t.last = .completed → ∀ u, exec c { t with snap := none, inPair := true } = .next u → issuePair false c a s = whole u) ∧
      ∀ e x y, t.last = .trapped e x y → issuePair false c a s = whole (first.trap e x y))

/-! ## Words -/

/-- R18, R26, R33, R34: words written out from the formats of the specification, one of each, decode to what they stand for. -/
def Obligations.DecodedWords : Prop :=
  ∀ q ∈ ([(0x20403400, ⟨false, false, .add 16 3 16⟩), (0x2014_61C1, ⟨false, false, .sub 5 6 7⟩), (0x2674_0040, ⟨false, false, .movi 29 0 0x40⟩),
    (0x2279_EFFC, ⟨false, false, .addi 30 30 0xFFC⟩), (0x2114_61C8, ⟨false, false, .sel 5 6 7 8⟩), (0x2914_61C8, ⟨false, false, .ffma 5 6 7 8⟩),
    (0x4550_D200, ⟨false, true, .ldH 20 13 0⟩), (0x8528_9600, ⟨true, false, .ldD 10 9 0⟩), (0x0718_7402, ⟨false, false, .stEf 6 7 2⟩),
    (0x0325_1E0C, ⟨false, false, .bNe 10 15 0x00C⟩), (0x0420_0001, ⟨false, false, .jlr 8⟩), (0x2A0C_1090, ⟨false, false, .vadd 3 1 2 2⟩),
    (0x3004_5181, ⟨false, false, .vcmpLt 1 5 6 0⟩), (0x3208_1241, ⟨false, false, .vcvtDn 2 1 9 0⟩), (0x090C_4148, ⟨false, false, .vgat 3 4 5 1⟩),
    (0x0C29_0000, ⟨false, false, .tNew 10 16⟩), (0x4C79_C747, ⟨false, true, .tWiden 30 28 29⟩), (0x0D51_5003, ⟨false, false, .mxMma 20 21 0⟩),
    (0x0E51_5580, ⟨false, false, .bkAdd 20 21 22⟩), (0x0F2D_4541, ⟨false, false, .upEmit 11 20 21⟩), (0x1214_61D9, ⟨false, false, .amoCas true 5 6 7⟩),
    (0x134D_5000, ⟨false, false, .barInit 19 21⟩), (0x1310_5187, ⟨false, false, .msgSend 4 5 6⟩), (0x0B15_4200, ⟨false, false, .tlbInv 5 20 8⟩),
    (0x104C_21C1, ⟨false, false, .cp2d 19 2 7⟩), (0x1114_6040, ⟨false, false, .tlRd 5 6 1⟩), (0x1400_D242, ⟨false, false, .emit 0 13 9⟩),
    (0x1438_C185, ⟨false, false, .futReg 14 12 6⟩), (0x1520_5241, ⟨false, false, .phRun 8 5 9⟩), (0x5635_4682, ⟨false, true, .tkCmt 13 20 26⟩),
    (0x1700_0A80, ⟨false, false, .trap 0x2A⟩), (0x1778_0083, ⟨false, false, .crWr 30 0x002⟩), (0x1714_6086, ⟨false, false, .repartStop 5 6⟩)] :
    List (BitVec 32 × InstrWord)), decodeWord q.1 = .ok q.2

/-- R18-R22, R26-R29, R33, R34: decoding undoes encoding: the bytes of a well-formed instruction, with its W bit and its P bit as
they may stand, decode to it again, whatever follows them. -/
def Obligations.DecodeEncode : Prop :=
  ∀ (x : InstrWord) (r : List (BitVec 8)), x.instr.wf = true → x.instr.isEvent = false →
    (x.p = true → (encodeFields x.instr).major.toNat < 32) → (∀ off, x.instr = .jlL off → x.p = true) →
    decodeBytes (encodeBytes x ++ r) = .ok (x, r)

/-- R18, R26, R28: a word stands for one instruction at most, and no bit of it is dropped: what a word decodes to encodes to that
word. -/
def Obligations.WordsUnique : Prop :=
  ∀ (x : BitVec 32) (i : InstrWord), decodeWord x = .ok i → encode i = [x] ∧ i.instr.wf = true ∧ i.instr.isEvent = false

/-! ## Reset and invariants -/

/-- R99, R113, R130, R140, R157, R202, R271, R334, R338: the machine after reset: the values that the specification gives its
registers; every slot EMPTY, and nothing in queues or in flight. It meets the invariants.
A register that R6 leaves open is not stated. That nothing stands in memory, which reads as zero, is the model's choice (log 1). -/
def Obligations.ResetState : Prop :=
  State.reset.memOk ∧ State.reset.coresOk ∧ State.reset.itemsOk ∧ State.reset.sectorsOk ∧
  State.reset.graphsOk ∧ State.reset.mem = [] ∧ State.reset.work = [] ∧ State.reset.boot = .waiting ∧
  ∀ c k, k < 16 → let r := State.reset.at_ c k
    r.thread.slot = .empty ∧ r.me.mode = 0 ∧ (∀ j, r.me.queue j = []) ∧ r.crRead 0x022 = BitVec.allOnes 64 ∧
    r.crRead 0x031 = 0x0808080808080808 ∧ r.crRead 0x032 = 0x2020202020202020 ∧ r.crRead 0x088 = 0x9E3779B9 ∧
    r.crRead 0x090 = 0x00100000 ∧
    ∀ n ∈ ([0x000, 0x001, 0x005, 0x010, 0x011, 0x020, 0x021, 0x040, 0x041, 0x042, 0x043, 0x080, 0x081, 0x082, 0x083, 0x084, 0x085,
      0x086, 0x087, 0x0A1, 0x0B0, 0x0B2, 0x0B4, 0x0B5, 0x0B6, 0x0B7, 0x0C0, 0x0C1] : List Nat), r.crRead n = 0

/-- R5, R184, R275: every step keeps memory in its one canonical form, so that equal memories are equal data.
The canonical form, no byte listed that reads as an unlisted one, is the model's own (log 1). -/
def Obligations.StepKeepsMemory : Prop :=
  Keeps State.memOk

/-- R129, R133: every step keeps every core in one of its three modes, its rotation counter on a slot of that mode, and the acting slot one of
sixteen. -/
def Obligations.StepKeepsCores : Prop :=
  Keeps State.coresOk

/-- R193, R312: every step keeps the numbers of what is in flight different and its sectors aligned, and whatever follows a live graph's
wave is the end or one of its control nodes.
The list of items in flight and their numbers are the model's own (log 7). -/
def Obligations.StepKeepsItems : Prop :=
  Keeps State.itemsOk ∧ Keeps State.sectorsOk ∧ Keeps State.graphsOk
end

