-- ==== Sys2Proof/Laws/Dispatch.lean ====
section
/-! SUPPORT. What `exec` calls for each instruction. -/

set_option Elab.async false

namespace Sys2Proof.Machine

open Sys2Proof

theorem exec_add d a b s : exec (.add d a b) s = execAdd d a b s := rfl
theorem exec_sub d a b s : exec (.sub d a b) s = execSub d a b s := rfl
theorem exec_and d a b s : exec (.and d a b) s = execAnd d a b s := rfl
theorem exec_or d a b s : exec (.or d a b) s = execOr d a b s := rfl
theorem exec_xor d a b s : exec (.xor d a b) s = execXor d a b s := rfl
theorem exec_andn d a b s : exec (.andn d a b) s = execAndn d a b s := rfl
theorem exec_shl d a b s : exec (.shl d a b) s = execShl d a b s := rfl
theorem exec_shr d a b s : exec (.shr d a b) s = execShr d a b s := rfl
theorem exec_sra d a b s : exec (.sra d a b) s = execSra d a b s := rfl
theorem exec_rol d a b s : exec (.rol d a b) s = execRol d a b s := rfl
theorem exec_min d a b s : exec (.min d a b) s = execMin d a b s := rfl
theorem exec_max d a b s : exec (.max d a b) s = execMax d a b s := rfl
theorem exec_minu d a b s : exec (.minu d a b) s = execMinu d a b s := rfl
theorem exec_maxu d a b s : exec (.maxu d a b) s = execMaxu d a b s := rfl
theorem exec_mul d a b s : exec (.mul d a b) s = execMul d a b s := rfl
theorem exec_mulh d a b s : exec (.mulh d a b) s = execMulh d a b s := rfl
theorem exec_mulhu d a b s : exec (.mulhu d a b) s = execMulhu d a b s := rfl
theorem exec_div d a b s : exec (.div d a b) s = execDiv d a b s := rfl
theorem exec_divu d a b s : exec (.divu d a b) s = execDivu d a b s := rfl
theorem exec_rem d a b s : exec (.rem d a b) s = execRem d a b s := rfl
theorem exec_remu d a b s : exec (.remu d a b) s = execRemu d a b s := rfl
theorem exec_clz d a s : exec (.clz d a) s = execClz d a s := rfl
theorem exec_ctz d a s : exec (.ctz d a) s = execCtz d a s := rfl
theorem exec_popc d a s : exec (.popc d a) s = execPopc d a s := rfl
theorem exec_sextB d a s : exec (.sextB d a) s = execSextB d a s := rfl
theorem exec_sextH d a s : exec (.sextH d a) s = execSextH d a s := rfl
theorem exec_sextW d a s : exec (.sextW d a) s = execSextW d a s := rfl
theorem exec_zextB d a s : exec (.zextB d a) s = execZextB d a s := rfl
theorem exec_zextH d a s : exec (.zextH d a) s = execZextH d a s := rfl
theorem exec_zextW d a s : exec (.zextW d a) s = execZextW d a s := rfl
theorem exec_cmpEq d a b s : exec (.cmpEq d a b) s = execCmpEq d a b s := rfl
theorem exec_cmpNe d a b s : exec (.cmpNe d a b) s = execCmpNe d a b s := rfl
theorem exec_cmpLt d a b s : exec (.cmpLt d a b) s = execCmpLt d a b s := rfl
theorem exec_cmpGe d a b s : exec (.cmpGe d a b) s = execCmpGe d a b s := rfl
theorem exec_cmpLtu d a b s : exec (.cmpLtu d a b) s = execCmpLtu d a b s := rfl
theorem exec_cmpGeu d a b s : exec (.cmpGeu d a b) s = execCmpGeu d a b s := rfl
theorem exec_sel d a b c s : exec (.sel d a b c) s = execSel d a b c s := rfl
theorem exec_addi d a imm s : exec (.addi d a imm) s = execAddi d a imm s := rfl
theorem exec_andi d a imm s : exec (.andi d a imm) s = execAndi d a imm s := rfl
theorem exec_ori d a imm s : exec (.ori d a imm) s = execOri d a imm s := rfl
theorem exec_xori d a imm s : exec (.xori d a imm) s = execXori d a imm s := rfl
theorem exec_movi d hw imm s : exec (.movi d hw imm) s = execMovi d hw imm s := rfl
theorem exec_movk d hw imm s : exec (.movk d hw imm) s = execMovk d hw imm s := rfl
theorem exec_fadd d a b s : exec (.fadd d a b) s = execFadd d a b s := rfl
theorem exec_fsub d a b s : exec (.fsub d a b) s = execFsub d a b s := rfl
theorem exec_fmul d a b s : exec (.fmul d a b) s = execFmul d a b s := rfl
theorem exec_fmin d a b s : exec (.fmin d a b) s = execFmin d a b s := rfl
theorem exec_fmax d a b s : exec (.fmax d a b) s = execFmax d a b s := rfl
theorem exec_fdiv d a b s : exec (.fdiv d a b) s = execFdiv d a b s := rfl
theorem exec_fsqrt d a s : exec (.fsqrt d a) s = execFsqrt d a s := rfl
theorem exec_fclass d a s : exec (.fclass d a) s = execFclass d a s := rfl
theorem exec_fcmpEq d a b s : exec (.fcmpEq d a b) s = execFcmpEq d a b s := rfl
theorem exec_fcmpLt d a b s : exec (.fcmpLt d a b) s = execFcmpLt d a b s := rfl
theorem exec_fcmpLe d a b s : exec (.fcmpLe d a b) s = execFcmpLe d a b s := rfl
theorem exec_fcmpUn d a b s : exec (.fcmpUn d a b) s = execFcmpUn d a b s := rfl
theorem exec_fsgnJ d a b s : exec (.fsgnJ d a b) s = execFsgnJ d a b s := rfl
theorem exec_fsgnN d a b s : exec (.fsgnN d a b) s = execFsgnN d a b s := rfl
theorem exec_fsgnX d a b s : exec (.fsgnX d a b) s = execFsgnX d a b s := rfl
theorem exec_fcvtFI d a s : exec (.fcvtFI d a) s = execFcvtFI d a s := rfl
theorem exec_fcvtFIu d a s : exec (.fcvtFIu d a) s = execFcvtFIu d a s := rfl
theorem exec_fcvtIF d a s : exec (.fcvtIF d a) s = execFcvtIF d a s := rfl
theorem exec_fcvtIuF d a s : exec (.fcvtIuF d a) s = execFcvtIuF d a s := rfl
theorem exec_ffma d a b c s : exec (.ffma d a b c) s = execFfma d a b c s := rfl
theorem exec_vadd d a b m s : exec (.vadd d a b m) s = execVadd d a b m s := rfl
theorem exec_vsub d a b m s : exec (.vsub d a b m) s = execVsub d a b m s := rfl
theorem exec_vmul d a b m s : exec (.vmul d a b m) s = execVmul d a b m s := rfl
theorem exec_vmin d a b m s : exec (.vmin d a b m) s = execVmin d a b m s := rfl
theorem exec_vmax d a b m s : exec (.vmax d a b m) s = execVmax d a b m s := rfl
theorem exec_vdiv d a b m s : exec (.vdiv d a b m) s = execVdiv d a b m s := rfl
theorem exec_vsqrt d a m s : exec (.vsqrt d a m) s = execVsqrt d a m s := rfl
theorem exec_vabs d a m s : exec (.vabs d a m) s = execVabs d a m s := rfl
theorem exec_vexp2 d a m s : exec (.vexp2 d a m) s = execVexp2 d a m s := rfl
theorem exec_vlog2 d a m s : exec (.vlog2 d a m) s = execVlog2 d a m s := rfl
theorem exec_vrcp d a m s : exec (.vrcp d a m) s = execVrcp d a m s := rfl
theorem exec_vrsq d a m s : exec (.vrsq d a m) s = execVrsq d a m s := rfl
theorem exec_vneg d a m s : exec (.vneg d a m) s = execVneg d a m s := rfl
theorem exec_vfma d a b c s : exec (.vfma d a b c) s = execVfma d a b c s := rfl
theorem exec_vfnma d a b c s : exec (.vfnma d a b c) s = execVfnma d a b c s := rfl
theorem exec_vaddI d a b m s : exec (.vaddI d a b m) s = execVaddI d a b m s := rfl
theorem exec_vsubI d a b m s : exec (.vsubI d a b m) s = execVsubI d a b m s := rfl
theorem exec_vmulI d a b m s : exec (.vmulI d a b m) s = execVmulI d a b m s := rfl
theorem exec_vand d a b m s : exec (.vand d a b m) s = execVand d a b m s := rfl
theorem exec_vor d a b m s : exec (.vor d a b m) s = execVor d a b m s := rfl
theorem exec_vxor d a b m s : exec (.vxor d a b m) s = execVxor d a b m s := rfl
theorem exec_vshl d a b m s : exec (.vshl d a b m) s = execVshl d a b m s := rfl
theorem exec_vshr d a b m s : exec (.vshr d a b m) s = execVshr d a b m s := rfl
theorem exec_vsra d a b m s : exec (.vsra d a b m) s = execVsra d a b m s := rfl
theorem exec_vminI d a b m s : exec (.vminI d a b m) s = execVminI d a b m s := rfl
theorem exec_vmaxI d a b m s : exec (.vmaxI d a b m) s = execVmaxI d a b m s := rfl
theorem exec_vminu d a b m s : exec (.vminu d a b m) s = execVminu d a b m s := rfl
theorem exec_vmaxu d a b m s : exec (.vmaxu d a b m) s = execVmaxu d a b m s := rfl
theorem exec_vandn d a b m s : exec (.vandn d a b m) s = execVandn d a b m s := rfl
theorem exec_vcmpEq d a b m s : exec (.vcmpEq d a b m) s = execVcmpEq d a b m s := rfl
theorem exec_vcmpLt d a b m s : exec (.vcmpLt d a b m) s = execVcmpLt d a b m s := rfl
theorem exec_vcmpLe d a b m s : exec (.vcmpLe d a b m) s = execVcmpLe d a b m s := rfl
theorem exec_vcmpUn d a b m s : exec (.vcmpUn d a b m) s = execVcmpUn d a b m s := rfl
theorem exec_vcmpEqI d a b m s : exec (.vcmpEqI d a b m) s = execVcmpEqI d a b m s := rfl
theorem exec_vcmpLtI d a b m s : exec (.vcmpLtI d a b m) s = execVcmpLtI d a b m s := rfl
theorem exec_vcmpLtu d a b m s : exec (.vcmpLtu d a b m) s = execVcmpLtu d a b m s := rfl
theorem exec_vsel d a b c s : exec (.vsel d a b c) s = execVsel d a b c s := rfl
theorem exec_vcvtUp d a f m s : exec (.vcvtUp d a f m) s = execVcvtUp d a f m s := rfl
theorem exec_vcvtDn d a f m s : exec (.vcvtDn d a f m) s = execVcvtDn d a f m s := rfl
theorem exec_vcvtDnSat d a f m s : exec (.vcvtDnSat d a f m) s = execVcvtDnSat d a f m s := rfl
theorem exec_vcvtDnSr d a f m s : exec (.vcvtDnSr d a f m) s = execVcvtDnSr d a f m s := rfl
theorem exec_vcvtDnSrSat d a f m s : exec (.vcvtDnSrSat d a f m) s = execVcvtDnSrSat d a f m s := rfl
theorem exec_vcvtDnRtz d a f m s : exec (.vcvtDnRtz d a f m) s = execVcvtDnRtz d a f m s := rfl
theorem exec_vperm d a b m s : exec (.vperm d a b m) s = execVperm d a b m s := rfl
theorem exec_vbcast d a m s : exec (.vbcast d a m) s = execVbcast d a m s := rfl
theorem exec_vins d a n m s : exec (.vins d a n m) s = execVins d a n m s := rfl
theorem exec_vext d a n s : exec (.vext d a n) s = execVext d a n s := rfl
theorem exec_vredAdd d a m s : exec (.vredAdd d a m) s = execVredAdd d a m s := rfl
theorem exec_vredMax d a m s : exec (.vredMax d a m) s = execVredMax d a m s := rfl
theorem exec_vredMin d a m s : exec (.vredMin d a m) s = execVredMin d a m s := rfl
theorem exec_mand d a b s : exec (.mand d a b) s = execMand d a b s := rfl
theorem exec_mor d a b s : exec (.mor d a b) s = execMor d a b s := rfl
theorem exec_mnot d a s : exec (.mnot d a) s = execMnot d a s := rfl
theorem exec_mpopc d a s : exec (.mpopc d a) s = execMpopc d a s := rfl
theorem exec_vaddBf d a b m s : exec (.vaddBf d a b m) s = execVaddBf d a b m s := rfl
theorem exec_vmulBf d a b m s : exec (.vmulBf d a b m) s = execVmulBf d a b m s := rfl
theorem exec_vaddHf d a b m s : exec (.vaddHf d a b m) s = execVaddHf d a b m s := rfl
theorem exec_vmulHf d a b m s : exec (.vmulHf d a b m) s = execVmulHf d a b m s := rfl
theorem exec_vaddI16 d a b m s : exec (.vaddI16 d a b m) s = execVaddI16 d a b m s := rfl
theorem exec_vsubI16 d a b m s : exec (.vsubI16 d a b m) s = execVsubI16 d a b m s := rfl
theorem exec_vaddI8 d a b m s : exec (.vaddI8 d a b m) s = execVaddI8 d a b m s := rfl
theorem exec_vsubI8 d a b m s : exec (.vsubI8 d a b m) s = execVsubI8 d a b m s := rfl
theorem exec_j off s : exec (.j off) s = execJ off s := rfl
theorem exec_jl off s : exec (.jl off) s = execJl off s := rfl
theorem exec_jlL off s : exec (.jlL off) s = execJlL off s := rfl
theorem exec_bEq a b off s : exec (.bEq a b off) s = execBEq a b off s := rfl
theorem exec_bNe a b off s : exec (.bNe a b off) s = execBNe a b off s := rfl
theorem exec_bLt a b off s : exec (.bLt a b off) s = execBLt a b off s := rfl
theorem exec_bGe a b off s : exec (.bGe a b off) s = execBGe a b off s := rfl
theorem exec_bLtu a b off s : exec (.bLtu a b off) s = execBLtu a b off s := rfl
theorem exec_bGeu a b off s : exec (.bGeu a b off) s = execBGeu a b off s := rfl
theorem exec_bBset a bit off s : exec (.bBset a bit off) s = execBBset a bit off s := rfl
theorem exec_bBclr a bit off s : exec (.bBclr a bit off) s = execBBclr a bit off s := rfl
theorem exec_jr a s : exec (.jr a) s = execJr a s := rfl
theorem exec_jrA a s : exec (.jrA a) s = execJrA a s := rfl
theorem exec_jlr a s : exec (.jlr a) s = execJlr a s := rfl
theorem exec_jlrA a s : exec (.jlrA a) s = execJlrA a s := rfl
theorem exec_ldB t base off s : exec (.ldB t base off) s = execLdB t base off s := rfl
theorem exec_ldH t base off s : exec (.ldH t base off) s = execLdH t base off s := rfl
theorem exec_ldW t base off s : exec (.ldW t base off) s = execLdW t base off s := rfl
theorem exec_ldD t base off s : exec (.ldD t base off) s = execLdD t base off s := rfl
theorem exec_ldBu t base off s : exec (.ldBu t base off) s = execLdBu t base off s := rfl
theorem exec_ldHu t base off s : exec (.ldHu t base off) s = execLdHu t base off s := rfl
theorem exec_ldWu t base off s : exec (.ldWu t base off) s = execLdWu t base off s := rfl
theorem exec_stB t base off s : exec (.stB t base off) s = execStB t base off s := rfl
theorem exec_stH t base off s : exec (.stH t base off) s = execStH t base off s := rfl
theorem exec_stW t base off s : exec (.stW t base off) s = execStW t base off s := rfl
theorem exec_stD t base off s : exec (.stD t base off) s = execStD t base off s := rfl
theorem exec_ldFe t base off s : exec (.ldFe t base off) s = execLdFe t base off s := rfl
theorem exec_ldFf t base off s : exec (.ldFf t base off) s = execLdFf t base off s := rfl
theorem exec_stEf t base off s : exec (.stEf t base off) s = execStEf t base off s := rfl
theorem exec_stF t base off s : exec (.stF t base off) s = execStF t base off s := rfl
theorem exec_ldw t base off s : exec (.ldw t base off) s = execLdw t base off s := rfl
theorem exec_pf lvl base off s : exec (.pf lvl base off) s = execPf lvl base off s := rfl
theorem exec_ipf lvl base off s : exec (.ipf lvl base off) s = execIpf lvl base off s := rfl
theorem exec_vld t base off s : exec (.vld t base off) s = execVld t base off s := rfl
theorem exec_vst t base off s : exec (.vst t base off) s = execVst t base off s := rfl
theorem exec_vldw t base off s : exec (.vldw t base off) s = execVldw t base off s := rfl
theorem exec_vstw t base off s : exec (.vstw t base off) s = execVstw t base off s := rfl
theorem exec_vgat a b c m s : exec (.vgat a b c m) s = execVgat a b c m s := rfl
theorem exec_vsct a b c m s : exec (.vsct a b c m) s = execVsct a b c m s := rfl
theorem exec_fenceCore s : exec (.fenceCore) s = execFenceCore s := rfl
theorem exec_fenceCl s : exec (.fenceCl) s = execFenceCl s := rfl
theorem exec_fenceDie s : exec (.fenceDie) s = execFenceDie s := rfl
theorem exec_fenceSys s : exec (.fenceSys) s = execFenceSys s := rfl
theorem exec_tlbInv a b c s : exec (.tlbInv a b c) s = execTlbInv a b c s := rfl
theorem exec_tlbSync s : exec (.tlbSync) s = execTlbSync s := rfl
theorem exec_dcWb a b s : exec (.dcWb a b) s = execDcWb a b s := rfl
theorem exec_dcInv a b s : exec (.dcInv a b) s = execDcInv a b s := rfl
theorem exec_dcWbinv a b s : exec (.dcWbinv a b) s = execDcWbinv a b s := rfl
theorem exec_icInv a b s : exec (.icInv a b) s = execIcInv a b s := rfl
theorem exec_tNew a b s : exec (.tNew a b) s = execTNew a b s := rfl
theorem exec_tFree a s : exec (.tFree a) s = execTFree a s := rfl
theorem exec_tLd a b s : exec (.tLd a b) s = execTLd a b s := rfl
theorem exec_tSt a b s : exec (.tSt a b) s = execTSt a b s := rfl
theorem exec_tGat a b c s : exec (.tGat a b c) s = execTGat a b c s := rfl
theorem exec_tPhr a b c s : exec (.tPhr a b c) s = execTPhr a b c s := rfl
theorem exec_tQ a b which s : exec (.tQ a b which) s = execTQ a b which s := rfl
theorem exec_tWiden a b c s : exec (.tWiden a b c) s = execTWiden a b c s := rfl
theorem exec_mxLease s : exec (.mxLease) s = execMxLease s := rfl
theorem exec_mxFree a s : exec (.mxFree a) s = execMxFree a s := rfl
theorem exec_mxCfg a s : exec (.mxCfg a) s = execMxCfg a s := rfl
theorem exec_mxMma a b tile s : exec (.mxMma a b tile) s = execMxMma a b tile s := rfl
theorem exec_mxSp a b tile s : exec (.mxSp a b tile) s = execMxSp a b tile s := rfl
theorem exec_mxZero tile s : exec (.mxZero tile) s = execMxZero tile s := rfl
theorem exec_mxLd a tile s : exec (.mxLd a tile) s = execMxLd a tile s := rfl
theorem exec_mxSt a tile s : exec (.mxSt a tile) s = execMxSt a tile s := rfl
theorem exec_bkAdd a b c s : exec (.bkAdd a b c) s = execBkAdd a b c s := rfl
theorem exec_bkMul a b c s : exec (.bkMul a b c) s = execBkMul a b c s := rfl
theorem exec_bkFma a b c s : exec (.bkFma a b c) s = execBkFma a b c s := rfl
theorem exec_bkMax a b c s : exec (.bkMax a b c) s = execBkMax a b c s := rfl
theorem exec_bkMin a b c s : exec (.bkMin a b c) s = execBkMin a b c s := rfl
theorem exec_bkFill a b c s : exec (.bkFill a b c) s = execBkFill a b c s := rfl
theorem exec_bkCvt a b c s : exec (.bkCvt a b c) s = execBkCvt a b c s := rfl
theorem exec_bkSum a b c s : exec (.bkSum a b c) s = execBkSum a b c s := rfl
theorem exec_bkOsm a b c s : exec (.bkOsm a b c) s = execBkOsm a b c s := rfl
theorem exec_upOpen a b s : exec (.upOpen a b) s = execUpOpen a b s := rfl
theorem exec_upEmit a b c s : exec (.upEmit a b c) s = execUpEmit a b c s := rfl
theorem exec_upEmitv a b c s : exec (.upEmitv a b c) s = execUpEmitv a b c s := rfl
theorem exec_upFlush a b s : exec (.upFlush a b) s = execUpFlush a b s := rfl
theorem exec_upClose a s : exec (.upClose a) s = execUpClose a s := rfl
theorem exec_upSt a b which s : exec (.upSt a b which) s = execUpSt a b which s := rfl
theorem exec_cp a ctx tag s : exec (.cp a ctx tag) s = execCp a ctx tag s := rfl
theorem exec_cp2d a ctx tag s : exec (.cp2d a ctx tag) s = execCp2d a ctx tag s := rfl
theorem exec_cpT a ctx tag s : exec (.cpT a ctx tag) s = execCpT a ctx tag s := rfl
theorem exec_tagWaitAll a s : exec (.tagWaitAll a) s = execTagWaitAll a s := rfl
theorem exec_tagWaitAny a b s : exec (.tagWaitAny a b) s = execTagWaitAny a b s := rfl
theorem exec_tagFfr a b s : exec (.tagFfr a b) s = execTagFfr a b s := rfl
theorem exec_tlRd a b kind s : exec (.tlRd a b kind) s = execTlRd a b kind s := rfl
theorem exec_tlWait a b kind s : exec (.tlWait a b kind) s = execTlWait a b kind s := rfl
theorem exec_amoAdd w a b c s : exec (.amoAdd w a b c) s = execAmoAdd w a b c s := rfl
theorem exec_amoAnd w a b c s : exec (.amoAnd w a b c) s = execAmoAnd w a b c s := rfl
theorem exec_amoOr w a b c s : exec (.amoOr w a b c) s = execAmoOr w a b c s := rfl
theorem exec_amoXor w a b c s : exec (.amoXor w a b c) s = execAmoXor w a b c s := rfl
theorem exec_amoMin w a b c s : exec (.amoMin w a b c) s = execAmoMin w a b c s := rfl
theorem exec_amoMax w a b c s : exec (.amoMax w a b c) s = execAmoMax w a b c s := rfl
theorem exec_amoMinu w a b c s : exec (.amoMinu w a b c) s = execAmoMinu w a b c s := rfl
theorem exec_amoMaxu w a b c s : exec (.amoMaxu w a b c) s = execAmoMaxu w a b c s := rfl
theorem exec_amoSwap w a b c s : exec (.amoSwap w a b c) s = execAmoSwap w a b c s := rfl
theorem exec_amoCas w a b c s : exec (.amoCas w a b c) s = execAmoCas w a b c s := rfl
theorem exec_barInit a b s : exec (.barInit a b) s = execBarInit a b s := rfl
theorem exec_barArr a s : exec (.barArr a) s = execBarArr a s := rfl
theorem exec_barExp a b s : exec (.barExp a b) s = execBarExp a b s := rfl
theorem exec_barWait a b s : exec (.barWait a b) s = execBarWait a b s := rfl
theorem exec_monArm a s : exec (.monArm a) s = execMonArm a s := rfl
theorem exec_monWait a b s : exec (.monWait a b) s = execMonWait a b s := rfl
theorem exec_monClr a s : exec (.monClr a) s = execMonClr a s := rfl
theorem exec_msgSend a b c s : exec (.msgSend a b c) s = execMsgSend a b c s := rfl
theorem exec_msgWait s : exec (.msgWait) s = execMsgWait s := rfl
theorem exec_msgPop a b s : exec (.msgPop a b) s = execMsgPop a b s := rfl
theorem exec_take a b s : exec (.take a b) s = execTake a b s := rfl
theorem exec_done s : exec (.done) s = execDone s := rfl
theorem exec_emit edge b c s : exec (.emit edge b c) s = execEmit edge b c s := rfl
theorem exec_susp a b s : exec (.susp a b) s = execSusp a b s := rfl
theorem exec_futInit a s : exec (.futInit a) s = execFutInit a s := rfl
theorem exec_futReg a b c s : exec (.futReg a b c) s = execFutReg a b c s := rfl
theorem exec_futRes a b s : exec (.futRes a b) s = execFutRes a b s := rfl
theorem exec_futResP a b s : exec (.futResP a b) s = execFutResP a b s := rfl
theorem exec_futRd a b s : exec (.futRd a b) s = execFutRd a b s := rfl
theorem exec_futRdS a b s : exec (.futRdS a b) s = execFutRdS a b s := rfl
theorem exec_gNotify a b n s : exec (.gNotify a b n) s = execGNotify a b n s := rfl
theorem exec_gLaunch a b c s : exec (.gLaunch a b c) s = execGLaunch a b c s := rfl
theorem exec_phLease a b c s : exec (.phLease a b c) s = execPhLease a b c s := rfl
theorem exec_phRun a b c s : exec (.phRun a b c) s = execPhRun a b c s := rfl
theorem exec_phFree a s : exec (.phFree a) s = execPhFree a s := rfl
theorem exec_tkArm a b e s : exec (.tkArm a b e) s = execTkArm a b e s := rfl
theorem exec_tkBud a b k s : exec (.tkBud a b k) s = execTkBud a b k s := rfl
theorem exec_tkCmt a b c s : exec (.tkCmt a b c) s = execTkCmt a b c s := rfl
theorem exec_tkDraft a b s : exec (.tkDraft a b) s = execTkDraft a b s := rfl
theorem exec_tkConf a b c s : exec (.tkConf a b c) s = execTkConf a b c s := rfl
theorem exec_tkNext a b s : exec (.tkNext a b) s = execTkNext a b s := rfl
theorem exec_tkSt a b which s : exec (.tkSt a b which) s = execTkSt a b which s := rfl
theorem exec_trap n s : exec (.trap n) s = execTrap n s := rfl
theorem exec_eret s : exec (.eret) s = execEret s := rfl
theorem exec_crRd a n s : exec (.crRd a n) s = execCrRd a n s := rfl
theorem exec_crWr a n s : exec (.crWr a n) s = execCrWr a n s := rfl
theorem exec_crSet a n s : exec (.crSet a n) s = execCrSet a n s := rfl
theorem exec_crClr a n s : exec (.crClr a n) s = execCrClr a n s := rfl
theorem exec_repart a b s : exec (.repart a b) s = execRepart a b s := rfl
theorem exec_repartRcl a b s : exec (.repartRcl a b) s = execRepartRcl a b s := rfl
theorem exec_repartStop a b s : exec (.repartStop a b) s = execRepartStop a b s := rfl
theorem exec_repartRun a b s : exec (.repartRun a b) s = execRepartRun a b s := rfl
theorem exec_halt s : exec (.halt) s = execHalt s := rfl
theorem exec_brk s : exec (.brk) s = execBrk s := rfl
theorem exec_ctrRd a n s : exec (.ctrRd a n) s = execCtrRd a n s := rfl
theorem exec_ctrCfg a n s : exec (.ctrCfg a n) s = execCtrCfg a n s := rfl
theorem exec_ctrClr a s : exec (.ctrClr a) s = execCtrClr a s := rfl
theorem exec_causeRead d s : exec (.causeRead d) s = execCauseRead d s := rfl
theorem exec_loadReturn k s : exec (.loadReturn k) s = execLoadReturn k s := rfl
theorem exec_fetchReturn k s : exec (.fetchReturn k) s = execFetchReturn k s := rfl
theorem exec_homeAccess k s : exec (.homeAccess k) s = execHomeAccess k s := rfl
theorem exec_fullEmptyArrival k s : exec (.fullEmptyArrival k) s = execFullEmptyArrival k s := rfl
theorem exec_writeBack k s : exec (.writeBack k) s = execWriteBack k s := rfl
theorem exec_eviction cluster sector s : exec (.eviction cluster sector) s = execEviction cluster sector s := rfl
theorem exec_monitorTimeout core slot s : exec (.monitorTimeout core slot) s = execMonitorTimeout core slot s := rfl
theorem exec_messageArrival k s : exec (.messageArrival k) s = execMessageArrival k s := rfl
theorem exec_handleCommandArrival k s : exec (.handleCommandArrival k) s = execHandleCommandArrival k s := rfl
theorem exec_handleCommandCompletion k s : exec (.handleCommandCompletion k) s = execHandleCommandCompletion k s := rfl
theorem exec_wideningConversion k s : exec (.wideningConversion k) s = execWideningConversion k s := rfl
theorem exec_leaseGrant cluster s : exec (.leaseGrant cluster) s = execLeaseGrant cluster s := rfl
theorem exec_leaseWatchdogExpiry cluster s : exec (.leaseWatchdogExpiry cluster) s = execLeaseWatchdogExpiry cluster s := rfl
theorem exec_arrayCommandCompletion k s : exec (.arrayCommandCompletion k) s = execArrayCommandCompletion k s := rfl
theorem exec_bankCommandPerformed k s : exec (.bankCommandPerformed k) s = execBankCommandPerformed k s := rfl
theorem exec_pairArrival k s : exec (.pairArrival k) s = execPairArrival k s := rfl
theorem exec_applicationEnd sid chan s : exec (.applicationEnd sid chan) s = execApplicationEnd sid chan s := rfl
theorem exec_flushArrival k s : exec (.flushArrival k) s = execFlushArrival k s := rfl
theorem exec_closeArrival k s : exec (.closeArrival k) s = execCloseArrival k s := rfl
theorem exec_copyCompletion k s : exec (.copyCompletion k) s = execCopyCompletion k s := rfl
theorem exec_invalidationArrival k s : exec (.invalidationArrival k) s = execInvalidationArrival k s := rfl
theorem exec_invalidationAcknowledgement k s : exec (.invalidationAcknowledgement k) s = execInvalidationAcknowledgement k s := rfl
theorem exec_migrate k s : exec (.migrate k) s = execMigrate k s := rfl
theorem exec_release k s : exec (.release k) s = execRelease k s := rfl
theorem exec_migrationCompletion k s : exec (.migrationCompletion k) s = execMigrationCompletion k s := rfl
theorem exec_launchCompletion k s : exec (.launchCompletion k) s = execLaunchCompletion k s := rfl
theorem exec_waveDrain die graph s : exec (.waveDrain die graph) s = execWaveDrain die graph s := rfl
theorem exec_itemArrival k s : exec (.itemArrival k) s = execItemArrival k s := rfl
theorem exec_stealRequest k s : exec (.stealRequest k) s = execStealRequest k s := rfl
theorem exec_stealBackoffExpiry core s : exec (.stealBackoffExpiry core) s = execStealBackoffExpiry core s := rfl
theorem exec_probeTimeout core s : exec (.probeTimeout core) s = execProbeTimeout core s := rfl
theorem exec_probeToken k s : exec (.probeToken k) s = execProbeToken k s := rfl
theorem exec_emergencyEntryRequest k s : exec (.emergencyEntryRequest k) s = execEmergencyEntryRequest k s := rfl
theorem exec_sealArrival k s : exec (.sealArrival k) s = execSealArrival k s := rfl
theorem exec_resumeNotice k s : exec (.resumeNotice k) s = execResumeNotice k s := rfl
theorem exec_phraseLeaseGrant chan s : exec (.phraseLeaseGrant chan) s = execPhraseLeaseGrant chan s := rfl
theorem exec_phraseRunCompletion k s : exec (.phraseRunCompletion k) s = execPhraseRunCompletion k s := rfl
theorem exec_lexrelWrite a s : exec (.lexrelWrite a) s = execLexrelWrite a s := rfl
theorem exec_save k s : exec (.save k) s = execSave k s := rfl
theorem exec_restore k s : exec (.restore k) s = execRestore k s := rfl
theorem exec_move k s : exec (.move k) s = execMove k s := rfl
theorem exec_unfwd k s : exec (.unfwd k) s = execUnfwd k s := rfl
theorem exec_preemptionCompletion k s : exec (.preemptionCompletion k) s = execPreemptionCompletion k s := rfl
theorem exec_debugHalt k s : exec (.debugHalt k) s = execDebugHalt k s := rfl
theorem exec_debugResume k s : exec (.debugResume k) s = execDebugResume k s := rfl
theorem exec_powerOnReset s : exec (.powerOnReset) s = execPowerOnReset s := rfl
theorem exec_boot k s : exec (.boot k) s = execBoot k s := rfl
theorem exec_bootPortTimeout s : exec (.bootPortTimeout) s = execBootPortTimeout s := rfl
theorem exec_discoveryPacket k s : exec (.discoveryPacket k) s = execDiscoveryPacket k s := rfl
theorem exec_imageDelivery k s : exec (.imageDelivery k) s = execImageDelivery k s := rfl
theorem exec_imageAcknowledgement k s : exec (.imageAcknowledgement k) s = execImageAcknowledgement k s := rfl
theorem exec_launch k s : exec (.launch k) s = execLaunch k s := rfl
theorem exec_map k s : exec (.map k) s = execMap k s := rfl
theorem exec_copy k s : exec (.copy k) s = execCopy k s := rfl
theorem exec_query k s : exec (.query k) s = execQuery k s := rfl
theorem exec_quote k s : exec (.quote k) s = execQuote k s := rfl
theorem exec_power k s : exec (.power k) s = execPower k s := rfl
theorem exec_undefinedLitarMessage k s : exec (.undefinedLitarMessage k) s = execUndefinedLitarMessage k s := rfl
theorem exec_nonLitarFrame k s : exec (.nonLitarFrame k) s = execNonLitarFrame k s := rfl
theorem exec_priorityFlowControl k s : exec (.priorityFlowControl k) s = execPriorityFlowControl k s := rfl
theorem exec_scedyFlit k s : exec (.scedyFlit k) s = execScedyFlit k s := rfl
theorem exec_linkLoss k s : exec (.linkLoss k) s = execLinkLoss k s := rfl
theorem exec_channelPowerEntry chan s : exec (.channelPowerEntry chan) s = execChannelPowerEntry chan s := rfl
theorem exec_channelWake chan s : exec (.channelWake chan) s = execChannelWake chan s := rfl
theorem exec_illegalInstruction s : exec (.illegalInstruction) s = execIllegalInstruction s := rfl
theorem exec_rotationBoundary core s : exec (.rotationBoundary core) s = execRotationBoundary core s := rfl
theorem exec_stealReply k s : exec (.stealReply k) s = execStealReply k s := rfl

end Sys2Proof.Machine
end

