-- ==== Sys2Proof/Laws/State.lean ====
section
/-! SUPPORT. What the updates of the state leave alone, field by field, and what is read back after each. -/

set_option Elab.async false

namespace Sys2Proof.Machine

open Sys2Proof

/-! ## Sparse tables and vectors -/

@[simp] theorem sget_sset_same {α : Type} (l : List (Nat × α)) (k : Nat) (x d : α) : sget (sset l k x) k d = x := by
  induction l with
  | nil => simp [sset, sget]
  | cons p r ih => obtain ⟨j, y⟩ := p; by_cases h : j = k <;> simp [sset, sget, h, ih]

theorem sget_sset_other {α : Type} (l : List (Nat × α)) {k j : Nat} (x d : α) (h : j ≠ k) : sget (sset l k x) j d = sget l j d := by
  induction l with
  | nil => simp [sset, sget, Ne.symm h]
  | cons p r ih =>
    obtain ⟨i, y⟩ := p
    by_cases hi : i = k
    · subst hi; simp [sset, sget, Ne.symm h]
    · rw [sset, if_neg hi]; simp only [sget, ih]

theorem vget_vset_same {α : Type} {n : Nat} (v : Vector α n) {i : Nat} (x d : α) (h : i < n) : vget (vset v i x) i d = x := by
  simp [vget, vset, h]

theorem vget_vset_other {α : Type} {n : Nat} (v : Vector α n) {i j : Nat} (x d : α) (h : j ≠ i) : vget (vset v i x) j d = vget v j d := by
  unfold vget vset
  by_cases hj : j < n <;> by_cases hi : i < n <;> simp [hj, hi, Ne.symm h]

theorem vget_default {α : Type} {n : Nat} (v : Vector α n) {i : Nat} (d : α) (h : ¬ i < n) : vget v i d = d := by
  simp [vget, h]

/-! ## Fields that an update leaves alone -/

@[simp] theorem State.setCore_mem (s : State) (c : Nat) (x : Core) : (s.setCore c x).mem = s.mem := rfl
@[simp] theorem State.setCore_full (s : State) (c : Nat) (x : Core) : (s.setCore c x).full = s.full := rfl
@[simp] theorem State.setCore_bad (s : State) (c : Nat) (x : Core) : (s.setCore c x).bad = s.bad := rfl
@[simp] theorem State.setCore_soft (s : State) (c : Nat) (x : Core) : (s.setCore c x).soft = s.soft := rfl
@[simp] theorem State.setCore_parity (s : State) (c : Nat) (x : Core) : (s.setCore c x).parity = s.parity := rfl
@[simp] theorem State.setCore_dirtyBad (s : State) (c : Nat) (x : Core) : (s.setCore c x).dirtyBad = s.dirtyBad := rfl
@[simp] theorem State.setCore_clusters (s : State) (c : Nat) (x : Core) : (s.setCore c x).clusters = s.clusters := rfl
@[simp] theorem State.setCore_dies (s : State) (c : Nat) (x : Core) : (s.setCore c x).dies = s.dies := rfl
@[simp] theorem State.setCore_work (s : State) (c : Nat) (x : Core) : (s.setCore c x).work = s.work := rfl
@[simp] theorem State.setCore_nextId (s : State) (c : Nat) (x : Core) : (s.setCore c x).nextId = s.nextId := rfl
@[simp] theorem State.setCore_tick (s : State) (c : Nat) (x : Core) : (s.setCore c x).tick = s.tick := rfl
@[simp] theorem State.setCore_cap (s : State) (c : Nat) (x : Core) : (s.setCore c x).cap = s.cap := rfl
@[simp] theorem State.setCore_tensors (s : State) (c : Nat) (x : Core) : (s.setCore c x).tensors = s.tensors := rfl
@[simp] theorem State.setCore_frameNext (s : State) (c : Nat) (x : Core) : (s.setCore c x).frameNext = s.frameNext := rfl
@[simp] theorem State.setCore_freeFrames (s : State) (c : Nat) (x : Core) : (s.setCore c x).freeFrames = s.freeFrames := rfl
@[simp] theorem State.setCore_regions (s : State) (c : Nat) (x : Core) : (s.setCore c x).regions = s.regions := rfl
@[simp] theorem State.setCore_phraseLeases (s : State) (c : Nat) (x : Core) : (s.setCore c x).phraseLeases = s.phraseLeases := rfl
@[simp] theorem State.setCore_phraseReqs (s : State) (c : Nat) (x : Core) : (s.setCore c x).phraseReqs = s.phraseReqs := rfl
@[simp] theorem State.setCore_forwards (s : State) (c : Nat) (x : Core) : (s.setCore c x).forwards = s.forwards := rfl
@[simp] theorem State.setCore_moved (s : State) (c : Nat) (x : Core) : (s.setCore c x).moved = s.moved := rfl
@[simp] theorem State.setCore_restored (s : State) (c : Nat) (x : Core) : (s.setCore c x).restored = s.restored := rfl
@[simp] theorem State.setCore_power (s : State) (c : Nat) (x : Core) : (s.setCore c x).power = s.power := rfl
@[simp] theorem State.setCore_entering (s : State) (c : Nat) (x : Core) : (s.setCore c x).entering = s.entering := rfl
@[simp] theorem State.setCore_inputs (s : State) (c : Nat) (x : Core) : (s.setCore c x).inputs = s.inputs := rfl
@[simp] theorem State.setCore_replies (s : State) (c : Nat) (x : Core) : (s.setCore c x).replies = s.replies := rfl
@[simp] theorem State.setCore_paused (s : State) (c : Nat) (x : Core) : (s.setCore c x).paused = s.paused := rfl
@[simp] theorem State.setCore_flits (s : State) (c : Nat) (x : Core) : (s.setCore c x).flits = s.flits := rfl
@[simp] theorem State.setCore_boot (s : State) (c : Nat) (x : Core) : (s.setCore c x).boot = s.boot := rfl
@[simp] theorem State.setCore_bootPort (s : State) (c : Nat) (x : Core) : (s.setCore c x).bootPort = s.bootPort := rfl
@[simp] theorem State.setCore_coords (s : State) (c : Nat) (x : Core) : (s.setCore c x).coords = s.coords := rfl
@[simp] theorem State.setCore_awaiting (s : State) (c : Nat) (x : Core) : (s.setCore c x).awaiting = s.awaiting := rfl
@[simp] theorem State.setCore_bootReply (s : State) (c : Nat) (x : Core) : (s.setCore c x).bootReply = s.bootReply := rfl
@[simp] theorem State.setCore_bootCode (s : State) (c : Nat) (x : Core) : (s.setCore c x).bootCode = s.bootCode := rfl
@[simp] theorem State.setCore_bootData (s : State) (c : Nat) (x : Core) : (s.setCore c x).bootData = s.bootData := rfl
@[simp] theorem State.setCore_capRecords (s : State) (c : Nat) (x : Core) : (s.setCore c x).capRecords = s.capRecords := rfl
@[simp] theorem State.setCore_capFrame (s : State) (c : Nat) (x : Core) : (s.setCore c x).capFrame = s.capFrame := rfl
@[simp] theorem State.setCore_version (s : State) (c : Nat) (x : Core) : (s.setCore c x).version = s.version := rfl
@[simp] theorem State.setCore_digest (s : State) (c : Nat) (x : Core) : (s.setCore c x).digest = s.digest := rfl
@[simp] theorem State.setCore_fuses (s : State) (c : Nat) (x : Core) : (s.setCore c x).fuses = s.fuses := rfl
@[simp] theorem State.setCore_minVersion (s : State) (c : Nat) (x : Core) : (s.setCore c x).minVersion = s.minVersion := rfl
@[simp] theorem State.setCore_saves (s : State) (c : Nat) (x : Core) : (s.setCore c x).saves = s.saves := rfl
@[simp] theorem State.setCore_fused (s : State) (c : Nat) (x : Core) : (s.setCore c x).fused = s.fused := rfl
@[simp] theorem State.setCore_absent (s : State) (c : Nat) (x : Core) : (s.setCore c x).absent = s.absent := rfl
@[simp] theorem State.setCore_deadChannels (s : State) (c : Nat) (x : Core) : (s.setCore c x).deadChannels = s.deadChannels := rfl
@[simp] theorem State.setCore_deadLinks (s : State) (c : Nat) (x : Core) : (s.setCore c x).deadLinks = s.deadLinks := rfl
@[simp] theorem State.setCore_deadPorts (s : State) (c : Nat) (x : Core) : (s.setCore c x).deadPorts = s.deadPorts := rfl
@[simp] theorem State.setCore_bufCap (s : State) (c : Nat) (x : Core) : (s.setCore c x).bufCap = s.bufCap := rfl
@[simp] theorem State.setCore_devices (s : State) (c : Nat) (x : Core) : (s.setCore c x).devices = s.devices := rfl
@[simp] theorem State.setCore_curCore (s : State) (c : Nat) (x : Core) : (s.setCore c x).curCore = s.curCore := rfl
@[simp] theorem State.setCore_curSlot (s : State) (c : Nat) (x : Core) : (s.setCore c x).curSlot = s.curSlot := rfl
@[simp] theorem State.setCore_inPair (s : State) (c : Nat) (x : Core) : (s.setCore c x).inPair = s.inPair := rfl
@[simp] theorem State.setCore_snap (s : State) (c : Nat) (x : Core) : (s.setCore c x).snap = s.snap := rfl
@[simp] theorem State.setCore_last (s : State) (c : Nat) (x : Core) : (s.setCore c x).last = s.last := rfl
@[simp] theorem State.setCore_sched (s : State) (c : Nat) (x : Core) : (s.setCore c x).sched = s.sched := rfl
@[simp] theorem State.setCore_turn (s : State) (c : Nat) (x : Core) : (s.setCore c x).turn = s.turn := rfl
@[simp] theorem State.setCore_freeCtr (s : State) (c : Nat) (x : Core) : (s.setCore c x).freeCtr = s.freeCtr := rfl
@[simp] theorem State.setCore_dirtySoft (s : State) (c : Nat) (x : Core) : (s.setCore c x).dirtySoft = s.dirtySoft := rfl
@[simp] theorem State.setCore_iparity (s : State) (c : Nat) (x : Core) : (s.setCore c x).iparity = s.iparity := rfl
@[simp] theorem State.setCore_outbox (s : State) (c : Nat) (x : Core) : (s.setCore c x).outbox = s.outbox := rfl
@[simp] theorem State.setCore_linked0 (s : State) (c : Nat) (x : Core) : (s.setCore c x).linked0 = s.linked0 := rfl
@[simp] theorem State.setCore_bootImage (s : State) (c : Nat) (x : Core) : (s.setCore c x).bootImage = s.bootImage := rfl
@[simp] theorem State.setCore_partitions (s : State) (c : Nat) (x : Core) : (s.setCore c x).partitions = s.partitions := rfl
@[simp] theorem State.setCore_phraseTurn (s : State) (c : Nat) (x : Core) : (s.setCore c x).phraseTurn = s.phraseTurn := rfl
@[simp] theorem State.setCore_partitionOf (s : State) (c : Nat) (x : Core) : (s.setCore c x).partitionOf = s.partitionOf := rfl

@[simp] theorem State.setCluster_mem (s : State) (c : Nat) (x : Cluster) : (s.setCluster c x).mem = s.mem := rfl
@[simp] theorem State.setCluster_full (s : State) (c : Nat) (x : Cluster) : (s.setCluster c x).full = s.full := rfl
@[simp] theorem State.setCluster_bad (s : State) (c : Nat) (x : Cluster) : (s.setCluster c x).bad = s.bad := rfl
@[simp] theorem State.setCluster_soft (s : State) (c : Nat) (x : Cluster) : (s.setCluster c x).soft = s.soft := rfl
@[simp] theorem State.setCluster_parity (s : State) (c : Nat) (x : Cluster) : (s.setCluster c x).parity = s.parity := rfl
@[simp] theorem State.setCluster_dirtyBad (s : State) (c : Nat) (x : Cluster) : (s.setCluster c x).dirtyBad = s.dirtyBad := rfl
@[simp] theorem State.setCluster_cores (s : State) (c : Nat) (x : Cluster) : (s.setCluster c x).cores = s.cores := rfl
@[simp] theorem State.setCluster_dies (s : State) (c : Nat) (x : Cluster) : (s.setCluster c x).dies = s.dies := rfl
@[simp] theorem State.setCluster_work (s : State) (c : Nat) (x : Cluster) : (s.setCluster c x).work = s.work := rfl
@[simp] theorem State.setCluster_nextId (s : State) (c : Nat) (x : Cluster) : (s.setCluster c x).nextId = s.nextId := rfl
@[simp] theorem State.setCluster_tick (s : State) (c : Nat) (x : Cluster) : (s.setCluster c x).tick = s.tick := rfl
@[simp] theorem State.setCluster_cap (s : State) (c : Nat) (x : Cluster) : (s.setCluster c x).cap = s.cap := rfl
@[simp] theorem State.setCluster_tensors (s : State) (c : Nat) (x : Cluster) : (s.setCluster c x).tensors = s.tensors := rfl
@[simp] theorem State.setCluster_frameNext (s : State) (c : Nat) (x : Cluster) : (s.setCluster c x).frameNext = s.frameNext := rfl
@[simp] theorem State.setCluster_freeFrames (s : State) (c : Nat) (x : Cluster) : (s.setCluster c x).freeFrames = s.freeFrames := rfl
@[simp] theorem State.setCluster_regions (s : State) (c : Nat) (x : Cluster) : (s.setCluster c x).regions = s.regions := rfl
@[simp] theorem State.setCluster_phraseLeases (s : State) (c : Nat) (x : Cluster) : (s.setCluster c x).phraseLeases = s.phraseLeases := rfl
@[simp] theorem State.setCluster_phraseReqs (s : State) (c : Nat) (x : Cluster) : (s.setCluster c x).phraseReqs = s.phraseReqs := rfl
@[simp] theorem State.setCluster_forwards (s : State) (c : Nat) (x : Cluster) : (s.setCluster c x).forwards = s.forwards := rfl
@[simp] theorem State.setCluster_moved (s : State) (c : Nat) (x : Cluster) : (s.setCluster c x).moved = s.moved := rfl
@[simp] theorem State.setCluster_restored (s : State) (c : Nat) (x : Cluster) : (s.setCluster c x).restored = s.restored := rfl
@[simp] theorem State.setCluster_power (s : State) (c : Nat) (x : Cluster) : (s.setCluster c x).power = s.power := rfl
@[simp] theorem State.setCluster_entering (s : State) (c : Nat) (x : Cluster) : (s.setCluster c x).entering = s.entering := rfl
@[simp] theorem State.setCluster_inputs (s : State) (c : Nat) (x : Cluster) : (s.setCluster c x).inputs = s.inputs := rfl
@[simp] theorem State.setCluster_replies (s : State) (c : Nat) (x : Cluster) : (s.setCluster c x).replies = s.replies := rfl
@[simp] theorem State.setCluster_paused (s : State) (c : Nat) (x : Cluster) : (s.setCluster c x).paused = s.paused := rfl
@[simp] theorem State.setCluster_flits (s : State) (c : Nat) (x : Cluster) : (s.setCluster c x).flits = s.flits := rfl
@[simp] theorem State.setCluster_boot (s : State) (c : Nat) (x : Cluster) : (s.setCluster c x).boot = s.boot := rfl
@[simp] theorem State.setCluster_bootPort (s : State) (c : Nat) (x : Cluster) : (s.setCluster c x).bootPort = s.bootPort := rfl
@[simp] theorem State.setCluster_coords (s : State) (c : Nat) (x : Cluster) : (s.setCluster c x).coords = s.coords := rfl
@[simp] theorem State.setCluster_awaiting (s : State) (c : Nat) (x : Cluster) : (s.setCluster c x).awaiting = s.awaiting := rfl
@[simp] theorem State.setCluster_bootReply (s : State) (c : Nat) (x : Cluster) : (s.setCluster c x).bootReply = s.bootReply := rfl
@[simp] theorem State.setCluster_bootCode (s : State) (c : Nat) (x : Cluster) : (s.setCluster c x).bootCode = s.bootCode := rfl
@[simp] theorem State.setCluster_bootData (s : State) (c : Nat) (x : Cluster) : (s.setCluster c x).bootData = s.bootData := rfl
@[simp] theorem State.setCluster_capRecords (s : State) (c : Nat) (x : Cluster) : (s.setCluster c x).capRecords = s.capRecords := rfl
@[simp] theorem State.setCluster_capFrame (s : State) (c : Nat) (x : Cluster) : (s.setCluster c x).capFrame = s.capFrame := rfl
@[simp] theorem State.setCluster_version (s : State) (c : Nat) (x : Cluster) : (s.setCluster c x).version = s.version := rfl
@[simp] theorem State.setCluster_digest (s : State) (c : Nat) (x : Cluster) : (s.setCluster c x).digest = s.digest := rfl
@[simp] theorem State.setCluster_fuses (s : State) (c : Nat) (x : Cluster) : (s.setCluster c x).fuses = s.fuses := rfl
@[simp] theorem State.setCluster_minVersion (s : State) (c : Nat) (x : Cluster) : (s.setCluster c x).minVersion = s.minVersion := rfl
@[simp] theorem State.setCluster_saves (s : State) (c : Nat) (x : Cluster) : (s.setCluster c x).saves = s.saves := rfl
@[simp] theorem State.setCluster_fused (s : State) (c : Nat) (x : Cluster) : (s.setCluster c x).fused = s.fused := rfl
@[simp] theorem State.setCluster_absent (s : State) (c : Nat) (x : Cluster) : (s.setCluster c x).absent = s.absent := rfl
@[simp] theorem State.setCluster_deadChannels (s : State) (c : Nat) (x : Cluster) : (s.setCluster c x).deadChannels = s.deadChannels := rfl
@[simp] theorem State.setCluster_deadLinks (s : State) (c : Nat) (x : Cluster) : (s.setCluster c x).deadLinks = s.deadLinks := rfl
@[simp] theorem State.setCluster_deadPorts (s : State) (c : Nat) (x : Cluster) : (s.setCluster c x).deadPorts = s.deadPorts := rfl
@[simp] theorem State.setCluster_bufCap (s : State) (c : Nat) (x : Cluster) : (s.setCluster c x).bufCap = s.bufCap := rfl
@[simp] theorem State.setCluster_devices (s : State) (c : Nat) (x : Cluster) : (s.setCluster c x).devices = s.devices := rfl
@[simp] theorem State.setCluster_curCore (s : State) (c : Nat) (x : Cluster) : (s.setCluster c x).curCore = s.curCore := rfl
@[simp] theorem State.setCluster_curSlot (s : State) (c : Nat) (x : Cluster) : (s.setCluster c x).curSlot = s.curSlot := rfl
@[simp] theorem State.setCluster_inPair (s : State) (c : Nat) (x : Cluster) : (s.setCluster c x).inPair = s.inPair := rfl
@[simp] theorem State.setCluster_snap (s : State) (c : Nat) (x : Cluster) : (s.setCluster c x).snap = s.snap := rfl
@[simp] theorem State.setCluster_last (s : State) (c : Nat) (x : Cluster) : (s.setCluster c x).last = s.last := rfl
@[simp] theorem State.setCluster_sched (s : State) (c : Nat) (x : Cluster) : (s.setCluster c x).sched = s.sched := rfl
@[simp] theorem State.setCluster_turn (s : State) (c : Nat) (x : Cluster) : (s.setCluster c x).turn = s.turn := rfl
@[simp] theorem State.setCluster_freeCtr (s : State) (c : Nat) (x : Cluster) : (s.setCluster c x).freeCtr = s.freeCtr := rfl
@[simp] theorem State.setCluster_dirtySoft (s : State) (c : Nat) (x : Cluster) : (s.setCluster c x).dirtySoft = s.dirtySoft := rfl
@[simp] theorem State.setCluster_iparity (s : State) (c : Nat) (x : Cluster) : (s.setCluster c x).iparity = s.iparity := rfl
@[simp] theorem State.setCluster_outbox (s : State) (c : Nat) (x : Cluster) : (s.setCluster c x).outbox = s.outbox := rfl
@[simp] theorem State.setCluster_linked0 (s : State) (c : Nat) (x : Cluster) : (s.setCluster c x).linked0 = s.linked0 := rfl
@[simp] theorem State.setCluster_bootImage (s : State) (c : Nat) (x : Cluster) : (s.setCluster c x).bootImage = s.bootImage := rfl
@[simp] theorem State.setCluster_partitions (s : State) (c : Nat) (x : Cluster) : (s.setCluster c x).partitions = s.partitions := rfl
@[simp] theorem State.setCluster_phraseTurn (s : State) (c : Nat) (x : Cluster) : (s.setCluster c x).phraseTurn = s.phraseTurn := rfl
@[simp] theorem State.setCluster_partitionOf (s : State) (c : Nat) (x : Cluster) : (s.setCluster c x).partitionOf = s.partitionOf := rfl

@[simp] theorem State.setDie_mem (s : State) (d : Nat) (x : Die) : (s.setDie d x).mem = s.mem := rfl
@[simp] theorem State.setDie_full (s : State) (d : Nat) (x : Die) : (s.setDie d x).full = s.full := rfl
@[simp] theorem State.setDie_bad (s : State) (d : Nat) (x : Die) : (s.setDie d x).bad = s.bad := rfl
@[simp] theorem State.setDie_soft (s : State) (d : Nat) (x : Die) : (s.setDie d x).soft = s.soft := rfl
@[simp] theorem State.setDie_parity (s : State) (d : Nat) (x : Die) : (s.setDie d x).parity = s.parity := rfl
@[simp] theorem State.setDie_dirtyBad (s : State) (d : Nat) (x : Die) : (s.setDie d x).dirtyBad = s.dirtyBad := rfl
@[simp] theorem State.setDie_cores (s : State) (d : Nat) (x : Die) : (s.setDie d x).cores = s.cores := rfl
@[simp] theorem State.setDie_clusters (s : State) (d : Nat) (x : Die) : (s.setDie d x).clusters = s.clusters := rfl
@[simp] theorem State.setDie_work (s : State) (d : Nat) (x : Die) : (s.setDie d x).work = s.work := rfl
@[simp] theorem State.setDie_nextId (s : State) (d : Nat) (x : Die) : (s.setDie d x).nextId = s.nextId := rfl
@[simp] theorem State.setDie_tick (s : State) (d : Nat) (x : Die) : (s.setDie d x).tick = s.tick := rfl
@[simp] theorem State.setDie_cap (s : State) (d : Nat) (x : Die) : (s.setDie d x).cap = s.cap := rfl
@[simp] theorem State.setDie_tensors (s : State) (d : Nat) (x : Die) : (s.setDie d x).tensors = s.tensors := rfl
@[simp] theorem State.setDie_frameNext (s : State) (d : Nat) (x : Die) : (s.setDie d x).frameNext = s.frameNext := rfl
@[simp] theorem State.setDie_freeFrames (s : State) (d : Nat) (x : Die) : (s.setDie d x).freeFrames = s.freeFrames := rfl
@[simp] theorem State.setDie_regions (s : State) (d : Nat) (x : Die) : (s.setDie d x).regions = s.regions := rfl
@[simp] theorem State.setDie_phraseLeases (s : State) (d : Nat) (x : Die) : (s.setDie d x).phraseLeases = s.phraseLeases := rfl
@[simp] theorem State.setDie_phraseReqs (s : State) (d : Nat) (x : Die) : (s.setDie d x).phraseReqs = s.phraseReqs := rfl
@[simp] theorem State.setDie_forwards (s : State) (d : Nat) (x : Die) : (s.setDie d x).forwards = s.forwards := rfl
@[simp] theorem State.setDie_moved (s : State) (d : Nat) (x : Die) : (s.setDie d x).moved = s.moved := rfl
@[simp] theorem State.setDie_restored (s : State) (d : Nat) (x : Die) : (s.setDie d x).restored = s.restored := rfl
@[simp] theorem State.setDie_power (s : State) (d : Nat) (x : Die) : (s.setDie d x).power = s.power := rfl
@[simp] theorem State.setDie_entering (s : State) (d : Nat) (x : Die) : (s.setDie d x).entering = s.entering := rfl
@[simp] theorem State.setDie_inputs (s : State) (d : Nat) (x : Die) : (s.setDie d x).inputs = s.inputs := rfl
@[simp] theorem State.setDie_replies (s : State) (d : Nat) (x : Die) : (s.setDie d x).replies = s.replies := rfl
@[simp] theorem State.setDie_paused (s : State) (d : Nat) (x : Die) : (s.setDie d x).paused = s.paused := rfl
@[simp] theorem State.setDie_flits (s : State) (d : Nat) (x : Die) : (s.setDie d x).flits = s.flits := rfl
@[simp] theorem State.setDie_boot (s : State) (d : Nat) (x : Die) : (s.setDie d x).boot = s.boot := rfl
@[simp] theorem State.setDie_bootPort (s : State) (d : Nat) (x : Die) : (s.setDie d x).bootPort = s.bootPort := rfl
@[simp] theorem State.setDie_coords (s : State) (d : Nat) (x : Die) : (s.setDie d x).coords = s.coords := rfl
@[simp] theorem State.setDie_awaiting (s : State) (d : Nat) (x : Die) : (s.setDie d x).awaiting = s.awaiting := rfl
@[simp] theorem State.setDie_bootReply (s : State) (d : Nat) (x : Die) : (s.setDie d x).bootReply = s.bootReply := rfl
@[simp] theorem State.setDie_bootCode (s : State) (d : Nat) (x : Die) : (s.setDie d x).bootCode = s.bootCode := rfl
@[simp] theorem State.setDie_bootData (s : State) (d : Nat) (x : Die) : (s.setDie d x).bootData = s.bootData := rfl
@[simp] theorem State.setDie_capRecords (s : State) (d : Nat) (x : Die) : (s.setDie d x).capRecords = s.capRecords := rfl
@[simp] theorem State.setDie_capFrame (s : State) (d : Nat) (x : Die) : (s.setDie d x).capFrame = s.capFrame := rfl
@[simp] theorem State.setDie_version (s : State) (d : Nat) (x : Die) : (s.setDie d x).version = s.version := rfl
@[simp] theorem State.setDie_digest (s : State) (d : Nat) (x : Die) : (s.setDie d x).digest = s.digest := rfl
@[simp] theorem State.setDie_fuses (s : State) (d : Nat) (x : Die) : (s.setDie d x).fuses = s.fuses := rfl
@[simp] theorem State.setDie_minVersion (s : State) (d : Nat) (x : Die) : (s.setDie d x).minVersion = s.minVersion := rfl
@[simp] theorem State.setDie_saves (s : State) (d : Nat) (x : Die) : (s.setDie d x).saves = s.saves := rfl
@[simp] theorem State.setDie_fused (s : State) (d : Nat) (x : Die) : (s.setDie d x).fused = s.fused := rfl
@[simp] theorem State.setDie_absent (s : State) (d : Nat) (x : Die) : (s.setDie d x).absent = s.absent := rfl
@[simp] theorem State.setDie_deadChannels (s : State) (d : Nat) (x : Die) : (s.setDie d x).deadChannels = s.deadChannels := rfl
@[simp] theorem State.setDie_deadLinks (s : State) (d : Nat) (x : Die) : (s.setDie d x).deadLinks = s.deadLinks := rfl
@[simp] theorem State.setDie_deadPorts (s : State) (d : Nat) (x : Die) : (s.setDie d x).deadPorts = s.deadPorts := rfl
@[simp] theorem State.setDie_bufCap (s : State) (d : Nat) (x : Die) : (s.setDie d x).bufCap = s.bufCap := rfl
@[simp] theorem State.setDie_devices (s : State) (d : Nat) (x : Die) : (s.setDie d x).devices = s.devices := rfl
@[simp] theorem State.setDie_curCore (s : State) (d : Nat) (x : Die) : (s.setDie d x).curCore = s.curCore := rfl
@[simp] theorem State.setDie_curSlot (s : State) (d : Nat) (x : Die) : (s.setDie d x).curSlot = s.curSlot := rfl
@[simp] theorem State.setDie_inPair (s : State) (d : Nat) (x : Die) : (s.setDie d x).inPair = s.inPair := rfl
@[simp] theorem State.setDie_snap (s : State) (d : Nat) (x : Die) : (s.setDie d x).snap = s.snap := rfl
@[simp] theorem State.setDie_last (s : State) (d : Nat) (x : Die) : (s.setDie d x).last = s.last := rfl
@[simp] theorem State.setDie_sched (s : State) (d : Nat) (x : Die) : (s.setDie d x).sched = s.sched := rfl
@[simp] theorem State.setDie_turn (s : State) (d : Nat) (x : Die) : (s.setDie d x).turn = s.turn := rfl
@[simp] theorem State.setDie_freeCtr (s : State) (d : Nat) (x : Die) : (s.setDie d x).freeCtr = s.freeCtr := rfl
@[simp] theorem State.setDie_dirtySoft (s : State) (d : Nat) (x : Die) : (s.setDie d x).dirtySoft = s.dirtySoft := rfl
@[simp] theorem State.setDie_iparity (s : State) (d : Nat) (x : Die) : (s.setDie d x).iparity = s.iparity := rfl
@[simp] theorem State.setDie_outbox (s : State) (d : Nat) (x : Die) : (s.setDie d x).outbox = s.outbox := rfl
@[simp] theorem State.setDie_linked0 (s : State) (d : Nat) (x : Die) : (s.setDie d x).linked0 = s.linked0 := rfl
@[simp] theorem State.setDie_bootImage (s : State) (d : Nat) (x : Die) : (s.setDie d x).bootImage = s.bootImage := rfl
@[simp] theorem State.setDie_partitions (s : State) (d : Nat) (x : Die) : (s.setDie d x).partitions = s.partitions := rfl
@[simp] theorem State.setDie_phraseTurn (s : State) (d : Nat) (x : Die) : (s.setDie d x).phraseTurn = s.phraseTurn := rfl
@[simp] theorem State.setDie_partitionOf (s : State) (d : Nat) (x : Die) : (s.setDie d x).partitionOf = s.partitionOf := rfl

@[simp] theorem State.setPartition_mem (s : State) (p : Nat) (x : Partition) : (s.setPartition p x).mem = s.mem := rfl
@[simp] theorem State.setPartition_full (s : State) (p : Nat) (x : Partition) : (s.setPartition p x).full = s.full := rfl
@[simp] theorem State.setPartition_bad (s : State) (p : Nat) (x : Partition) : (s.setPartition p x).bad = s.bad := rfl
@[simp] theorem State.setPartition_soft (s : State) (p : Nat) (x : Partition) : (s.setPartition p x).soft = s.soft := rfl
@[simp] theorem State.setPartition_parity (s : State) (p : Nat) (x : Partition) : (s.setPartition p x).parity = s.parity := rfl
@[simp] theorem State.setPartition_dirtyBad (s : State) (p : Nat) (x : Partition) : (s.setPartition p x).dirtyBad = s.dirtyBad := rfl
@[simp] theorem State.setPartition_dirtySoft (s : State) (p : Nat) (x : Partition) : (s.setPartition p x).dirtySoft = s.dirtySoft := rfl
@[simp] theorem State.setPartition_iparity (s : State) (p : Nat) (x : Partition) : (s.setPartition p x).iparity = s.iparity := rfl
@[simp] theorem State.setPartition_cores (s : State) (p : Nat) (x : Partition) : (s.setPartition p x).cores = s.cores := rfl
@[simp] theorem State.setPartition_clusters (s : State) (p : Nat) (x : Partition) : (s.setPartition p x).clusters = s.clusters := rfl
@[simp] theorem State.setPartition_dies (s : State) (p : Nat) (x : Partition) : (s.setPartition p x).dies = s.dies := rfl
@[simp] theorem State.setPartition_work (s : State) (p : Nat) (x : Partition) : (s.setPartition p x).work = s.work := rfl
@[simp] theorem State.setPartition_nextId (s : State) (p : Nat) (x : Partition) : (s.setPartition p x).nextId = s.nextId := rfl
@[simp] theorem State.setPartition_tick (s : State) (p : Nat) (x : Partition) : (s.setPartition p x).tick = s.tick := rfl
@[simp] theorem State.setPartition_cap (s : State) (p : Nat) (x : Partition) : (s.setPartition p x).cap = s.cap := rfl
@[simp] theorem State.setPartition_tensors (s : State) (p : Nat) (x : Partition) : (s.setPartition p x).tensors = s.tensors := rfl
@[simp] theorem State.setPartition_frameNext (s : State) (p : Nat) (x : Partition) : (s.setPartition p x).frameNext = s.frameNext := rfl
@[simp] theorem State.setPartition_freeFrames (s : State) (p : Nat) (x : Partition) : (s.setPartition p x).freeFrames = s.freeFrames := rfl
@[simp] theorem State.setPartition_regions (s : State) (p : Nat) (x : Partition) : (s.setPartition p x).regions = s.regions := rfl
@[simp] theorem State.setPartition_phraseLeases (s : State) (p : Nat) (x : Partition) : (s.setPartition p x).phraseLeases = s.phraseLeases := rfl
@[simp] theorem State.setPartition_phraseTurn (s : State) (p : Nat) (x : Partition) : (s.setPartition p x).phraseTurn = s.phraseTurn := rfl
@[simp] theorem State.setPartition_phraseReqs (s : State) (p : Nat) (x : Partition) : (s.setPartition p x).phraseReqs = s.phraseReqs := rfl
@[simp] theorem State.setPartition_forwards (s : State) (p : Nat) (x : Partition) : (s.setPartition p x).forwards = s.forwards := rfl
@[simp] theorem State.setPartition_moved (s : State) (p : Nat) (x : Partition) : (s.setPartition p x).moved = s.moved := rfl
@[simp] theorem State.setPartition_restored (s : State) (p : Nat) (x : Partition) : (s.setPartition p x).restored = s.restored := rfl
@[simp] theorem State.setPartition_power (s : State) (p : Nat) (x : Partition) : (s.setPartition p x).power = s.power := rfl
@[simp] theorem State.setPartition_entering (s : State) (p : Nat) (x : Partition) : (s.setPartition p x).entering = s.entering := rfl
@[simp] theorem State.setPartition_inputs (s : State) (p : Nat) (x : Partition) : (s.setPartition p x).inputs = s.inputs := rfl
@[simp] theorem State.setPartition_replies (s : State) (p : Nat) (x : Partition) : (s.setPartition p x).replies = s.replies := rfl
@[simp] theorem State.setPartition_paused (s : State) (p : Nat) (x : Partition) : (s.setPartition p x).paused = s.paused := rfl
@[simp] theorem State.setPartition_outbox (s : State) (p : Nat) (x : Partition) : (s.setPartition p x).outbox = s.outbox := rfl
@[simp] theorem State.setPartition_flits (s : State) (p : Nat) (x : Partition) : (s.setPartition p x).flits = s.flits := rfl
@[simp] theorem State.setPartition_boot (s : State) (p : Nat) (x : Partition) : (s.setPartition p x).boot = s.boot := rfl
@[simp] theorem State.setPartition_bootPort (s : State) (p : Nat) (x : Partition) : (s.setPartition p x).bootPort = s.bootPort := rfl
@[simp] theorem State.setPartition_linked0 (s : State) (p : Nat) (x : Partition) : (s.setPartition p x).linked0 = s.linked0 := rfl
@[simp] theorem State.setPartition_bootImage (s : State) (p : Nat) (x : Partition) : (s.setPartition p x).bootImage = s.bootImage := rfl
@[simp] theorem State.setPartition_coords (s : State) (p : Nat) (x : Partition) : (s.setPartition p x).coords = s.coords := rfl
@[simp] theorem State.setPartition_awaiting (s : State) (p : Nat) (x : Partition) : (s.setPartition p x).awaiting = s.awaiting := rfl
@[simp] theorem State.setPartition_bootReply (s : State) (p : Nat) (x : Partition) : (s.setPartition p x).bootReply = s.bootReply := rfl
@[simp] theorem State.setPartition_bootCode (s : State) (p : Nat) (x : Partition) : (s.setPartition p x).bootCode = s.bootCode := rfl
@[simp] theorem State.setPartition_bootData (s : State) (p : Nat) (x : Partition) : (s.setPartition p x).bootData = s.bootData := rfl
@[simp] theorem State.setPartition_capRecords (s : State) (p : Nat) (x : Partition) : (s.setPartition p x).capRecords = s.capRecords := rfl
@[simp] theorem State.setPartition_capFrame (s : State) (p : Nat) (x : Partition) : (s.setPartition p x).capFrame = s.capFrame := rfl
@[simp] theorem State.setPartition_version (s : State) (p : Nat) (x : Partition) : (s.setPartition p x).version = s.version := rfl
@[simp] theorem State.setPartition_digest (s : State) (p : Nat) (x : Partition) : (s.setPartition p x).digest = s.digest := rfl
@[simp] theorem State.setPartition_fuses (s : State) (p : Nat) (x : Partition) : (s.setPartition p x).fuses = s.fuses := rfl
@[simp] theorem State.setPartition_minVersion (s : State) (p : Nat) (x : Partition) : (s.setPartition p x).minVersion = s.minVersion := rfl
@[simp] theorem State.setPartition_saves (s : State) (p : Nat) (x : Partition) : (s.setPartition p x).saves = s.saves := rfl
@[simp] theorem State.setPartition_fused (s : State) (p : Nat) (x : Partition) : (s.setPartition p x).fused = s.fused := rfl
@[simp] theorem State.setPartition_absent (s : State) (p : Nat) (x : Partition) : (s.setPartition p x).absent = s.absent := rfl
@[simp] theorem State.setPartition_deadChannels (s : State) (p : Nat) (x : Partition) : (s.setPartition p x).deadChannels = s.deadChannels := rfl
@[simp] theorem State.setPartition_deadLinks (s : State) (p : Nat) (x : Partition) : (s.setPartition p x).deadLinks = s.deadLinks := rfl
@[simp] theorem State.setPartition_deadPorts (s : State) (p : Nat) (x : Partition) : (s.setPartition p x).deadPorts = s.deadPorts := rfl
@[simp] theorem State.setPartition_partitionOf (s : State) (p : Nat) (x : Partition) : (s.setPartition p x).partitionOf = s.partitionOf := rfl
@[simp] theorem State.setPartition_bufCap (s : State) (p : Nat) (x : Partition) : (s.setPartition p x).bufCap = s.bufCap := rfl
@[simp] theorem State.setPartition_devices (s : State) (p : Nat) (x : Partition) : (s.setPartition p x).devices = s.devices := rfl
@[simp] theorem State.setPartition_curCore (s : State) (p : Nat) (x : Partition) : (s.setPartition p x).curCore = s.curCore := rfl
@[simp] theorem State.setPartition_curSlot (s : State) (p : Nat) (x : Partition) : (s.setPartition p x).curSlot = s.curSlot := rfl
@[simp] theorem State.setPartition_inPair (s : State) (p : Nat) (x : Partition) : (s.setPartition p x).inPair = s.inPair := rfl
@[simp] theorem State.setPartition_snap (s : State) (p : Nat) (x : Partition) : (s.setPartition p x).snap = s.snap := rfl
@[simp] theorem State.setPartition_last (s : State) (p : Nat) (x : Partition) : (s.setPartition p x).last = s.last := rfl
@[simp] theorem State.setPartition_sched (s : State) (p : Nat) (x : Partition) : (s.setPartition p x).sched = s.sched := rfl
@[simp] theorem State.setPartition_turn (s : State) (p : Nat) (x : Partition) : (s.setPartition p x).turn = s.turn := rfl
@[simp] theorem State.setPartition_freeCtr (s : State) (p : Nat) (x : Partition) : (s.setPartition p x).freeCtr = s.freeCtr := rfl

@[simp] theorem State.setThread_mem (s : State) (x : Thread) : (s.setThread x).mem = s.mem := rfl
@[simp] theorem State.setThread_full (s : State) (x : Thread) : (s.setThread x).full = s.full := rfl
@[simp] theorem State.setThread_bad (s : State) (x : Thread) : (s.setThread x).bad = s.bad := rfl
@[simp] theorem State.setThread_clusters (s : State) (x : Thread) : (s.setThread x).clusters = s.clusters := rfl
@[simp] theorem State.setThread_dies (s : State) (x : Thread) : (s.setThread x).dies = s.dies := rfl
@[simp] theorem State.setThread_work (s : State) (x : Thread) : (s.setThread x).work = s.work := rfl
@[simp] theorem State.setThread_nextId (s : State) (x : Thread) : (s.setThread x).nextId = s.nextId := rfl
@[simp] theorem State.setThread_tick (s : State) (x : Thread) : (s.setThread x).tick = s.tick := rfl
@[simp] theorem State.setThread_tensors (s : State) (x : Thread) : (s.setThread x).tensors = s.tensors := rfl
@[simp] theorem State.setThread_regions (s : State) (x : Thread) : (s.setThread x).regions = s.regions := rfl
@[simp] theorem State.setThread_curCore (s : State) (x : Thread) : (s.setThread x).curCore = s.curCore := rfl
@[simp] theorem State.setThread_curSlot (s : State) (x : Thread) : (s.setThread x).curSlot = s.curSlot := rfl
@[simp] theorem State.setThread_inPair (s : State) (x : Thread) : (s.setThread x).inPair = s.inPair := rfl
@[simp] theorem State.setThread_snap (s : State) (x : Thread) : (s.setThread x).snap = s.snap := rfl
@[simp] theorem State.setThread_last (s : State) (x : Thread) : (s.setThread x).last = s.last := rfl
@[simp] theorem State.setThread_sched (s : State) (x : Thread) : (s.setThread x).sched = s.sched := rfl
@[simp] theorem State.setThread_freeCtr (s : State) (x : Thread) : (s.setThread x).freeCtr = s.freeCtr := rfl
@[simp] theorem State.setThread_partitions (s : State) (x : Thread) : (s.setThread x).partitions = s.partitions := rfl
@[simp] theorem State.setThread_partitionOf (s : State) (x : Thread) : (s.setThread x).partitionOf = s.partitionOf := rfl

@[simp] theorem State.setMe_mem (s : State) (x : Core) : (s.setMe x).mem = s.mem := rfl
@[simp] theorem State.setMe_full (s : State) (x : Core) : (s.setMe x).full = s.full := rfl
@[simp] theorem State.setMe_bad (s : State) (x : Core) : (s.setMe x).bad = s.bad := rfl
@[simp] theorem State.setMe_clusters (s : State) (x : Core) : (s.setMe x).clusters = s.clusters := rfl
@[simp] theorem State.setMe_dies (s : State) (x : Core) : (s.setMe x).dies = s.dies := rfl
@[simp] theorem State.setMe_work (s : State) (x : Core) : (s.setMe x).work = s.work := rfl
@[simp] theorem State.setMe_nextId (s : State) (x : Core) : (s.setMe x).nextId = s.nextId := rfl
@[simp] theorem State.setMe_tick (s : State) (x : Core) : (s.setMe x).tick = s.tick := rfl
@[simp] theorem State.setMe_tensors (s : State) (x : Core) : (s.setMe x).tensors = s.tensors := rfl
@[simp] theorem State.setMe_regions (s : State) (x : Core) : (s.setMe x).regions = s.regions := rfl
@[simp] theorem State.setMe_curCore (s : State) (x : Core) : (s.setMe x).curCore = s.curCore := rfl
@[simp] theorem State.setMe_curSlot (s : State) (x : Core) : (s.setMe x).curSlot = s.curSlot := rfl
@[simp] theorem State.setMe_inPair (s : State) (x : Core) : (s.setMe x).inPair = s.inPair := rfl
@[simp] theorem State.setMe_snap (s : State) (x : Core) : (s.setMe x).snap = s.snap := rfl
@[simp] theorem State.setMe_last (s : State) (x : Core) : (s.setMe x).last = s.last := rfl
@[simp] theorem State.setMe_sched (s : State) (x : Core) : (s.setMe x).sched = s.sched := rfl
@[simp] theorem State.setMe_freeCtr (s : State) (x : Core) : (s.setMe x).freeCtr = s.freeCtr := rfl
@[simp] theorem State.setMe_partitions (s : State) (x : Core) : (s.setMe x).partitions = s.partitions := rfl
@[simp] theorem State.setMe_partitionOf (s : State) (x : Core) : (s.setMe x).partitionOf = s.partitionOf := rfl

/-! ## What is read back -/

@[simp] theorem State.core_setCore (s : State) (c : Nat) (x : Core) : (s.setCore c x).core c = x := sget_sset_same ..

theorem State.core_setCore_other (s : State) {c d : Nat} (x : Core) (h : d ≠ c) : (s.setCore c x).core d = s.core d :=
  sget_sset_other _ _ _ h

@[simp] theorem State.cluster_setCluster (s : State) (c : Nat) (x : Cluster) : (s.setCluster c x).cluster c = x := sget_sset_same ..

theorem State.cluster_setCluster_other (s : State) {c d : Nat} (x : Cluster) (h : d ≠ c) :
    (s.setCluster c x).cluster d = s.cluster d := sget_sset_other _ _ _ h

@[simp] theorem State.die_setDie (s : State) (d : Nat) (x : Die) : (s.setDie d x).die d = x := sget_sset_same ..

theorem State.die_setDie_other (s : State) {c d : Nat} (x : Die) (h : d ≠ c) : (s.setDie c x).die d = s.die d :=
  sget_sset_other _ _ _ h

@[simp] theorem State.partition_setPartition (s : State) (p : Nat) (x : Partition) : (s.setPartition p x).partition p = x :=
  sget_sset_same ..

theorem State.partition_setPartition_other (s : State) {p q : Nat} (x : Partition) (h : q ≠ p) :
    (s.setPartition p x).partition q = s.partition q := sget_sset_other _ _ _ h

@[simp] theorem State.partAt_setPartAt (s : State) (c : Nat) (x : Partition) : (s.setPartAt c x).partAt c = x := sget_sset_same ..
@[simp] theorem State.partition_setCore (s : State) (c p : Nat) (x : Core) : (s.setCore c x).partition p = s.partition p := rfl
@[simp] theorem State.partAt_setCore (s : State) (c d : Nat) (x : Core) : (s.setCore c x).partAt d = s.partAt d := rfl
@[simp] theorem State.core_setPartition (s : State) (p c : Nat) (x : Partition) : (s.setPartition p x).core c = s.core c := rfl
@[simp] theorem State.core_setCluster (s : State) (c d : Nat) (x : Cluster) : (s.setCluster c x).core d = s.core d := rfl
@[simp] theorem State.core_setDie (s : State) (c d : Nat) (x : Die) : (s.setDie c x).core d = s.core d := rfl
@[simp] theorem State.cluster_setCore (s : State) (c d : Nat) (x : Core) : (s.setCore c x).cluster d = s.cluster d := rfl
@[simp] theorem State.die_setCore (s : State) (c d : Nat) (x : Core) : (s.setCore c x).die d = s.die d := rfl

theorem Core.thread_setThread (c : Core) {k : Nat} (x : Thread) (h : k < 16) : (c.setThread k x).thread k = x :=
  vget_vset_same _ _ _ h

theorem Core.thread_setThread_other (c : Core) {k j : Nat} (x : Thread) (h : j ≠ k) : (c.setThread k x).thread j = c.thread j :=
  vget_vset_other _ _ _ h

@[simp] theorem State.me_setMe (s : State) (x : Core) : (s.setMe x).me = x := sget_sset_same ..

theorem State.me_setThread (s : State) (x : Thread) : (s.setThread x).me = s.me.setThread s.curSlot x := sget_sset_same ..

theorem State.core_setThread_other (s : State) {c : Nat} (x : Thread) (h : c ≠ s.curCore) : (s.setThread x).core c = s.core c :=
  sget_sset_other _ _ _ h

theorem State.thread_setThread (s : State) (x : Thread) (h : s.curSlot < 16) : (s.setThread x).thread = x := by
  change (s.setThread x).me.thread s.curSlot = x
  rw [State.me_setThread, Core.thread_setThread _ _ h]

/-! ## One update after another -/

theorem sset_sset {α : Type} (l : List (Nat × α)) (k : Nat) (x y : α) : sset (sset l k x) k y = sset l k y := by
  induction l with
  | nil => simp [sset]
  | cons p r ih => obtain ⟨j, z⟩ := p; by_cases h : j = k <;> simp [sset, h, ih]

theorem vset_vset {α : Type} {n : Nat} (v : Vector α n) (i : Nat) (x y : α) : vset (vset v i x) i y = vset v i y := by
  by_cases h : i < n <;> simp [vset, h]

theorem Core.setThread_setThread (c : Core) (k : Nat) (x y : Thread) : (c.setThread k x).setThread k y = c.setThread k y := by
  simp only [Core.setThread, vset_vset]

theorem State.setCore_setCore (s : State) (c : Nat) (x y : Core) : (s.setCore c x).setCore c y = s.setCore c y := by
  simp only [State.setCore, sset_sset]

theorem State.setThread_setThread (s : State) (x y : Thread) : (s.setThread x).setThread y = s.setThread y := by
  change (s.setThread x).setCore s.curCore ((s.setThread x).me.setThread s.curSlot y) = _
  rw [State.me_setThread, Core.setThread_setThread]
  exact State.setCore_setCore ..

end Sys2Proof.Machine
end

