-- ==== Sys2Proof/Laws/Memory.lean ====
section
/-! SUPPORT. Memory's canonical form: every operation on memory keeps it, a byte written is the byte read, and no other
byte changes. -/

set_option Elab.async false

namespace Sys2Proof.Machine

open Sys2Proof

/-! ## The list of bytes -/

theorem keysAbove_mono {a b : Nat} : ∀ {m : List Host.Cell}, a ≤ b → keysAbove b m = true → keysAbove a m = true
  | [], _, _ => rfl
  | (k, _) :: r, h, hm => by
    simp only [keysAbove, Bool.and_eq_true, decide_eq_true_eq] at hm ⊢
    exact ⟨by omega, keysAbove_mono h hm.2⟩

/-- What no listed key reaches reads zero. -/
theorem memGet_below {a x : Nat} : ∀ {m : List Host.Cell}, keysAbove a m = true → x ≤ a → memGet m x = 0
  | [], _, _ => rfl
  | (k, b) :: r, h, hx => by
    simp only [keysAbove, Bool.and_eq_true, decide_eq_true_eq] at h
    rw [memGet, if_neg (by omega), if_pos (by omega)]

theorem keysAbove_memSet {a k : Nat} {x : Byte} : ∀ {m : List Host.Cell}, keysAbove a m = true → a < k → keysAbove a (memSet m k x) = true
  | [], _, hk => by
    unfold memSet; split
    · rfl
    · simpa [keysAbove] using hk
  | (j, b) :: r, h, hk => by
    simp only [keysAbove, Bool.and_eq_true, decide_eq_true_eq] at h
    have ih := keysAbove_memSet (x := x) h.2 hk
    unfold memSet
    repeat' split
    all_goals simp_all [keysAbove]

/-- A byte written keeps the form. -/
theorem memSet_wf {k : Nat} {x : Byte} : ∀ {m : List Host.Cell}, Memory.wf m = true → Memory.wf (memSet m k x) = true
  | [], _ => by
    unfold memSet; split
    · rfl
    · next hx => simpa [Memory.wf, keysAbove] using hx
  | (j, b) :: r, h => by
    have h' := h
    simp only [Memory.wf, Bool.and_eq_true, bne_iff_ne, ne_eq] at h'
    obtain ⟨⟨hj, hb⟩, hr⟩ := h'
    unfold memSet
    repeat' split
    · exact h
    · next hlt hx =>
      simp only [Memory.wf, keysAbove, Bool.and_eq_true, bne_iff_ne, ne_eq, decide_eq_true_eq]
      exact ⟨⟨⟨hlt, keysAbove_mono (by omega) hj⟩, hx⟩, ⟨hj, hb⟩, hr⟩
    · exact hr
    · next hlt heq hx =>
      simp only [Memory.wf, Bool.and_eq_true, bne_iff_ne, ne_eq]
      exact ⟨⟨heq ▸ hj, hx⟩, hr⟩
    · next hlt hne =>
      simp only [Memory.wf, Bool.and_eq_true, bne_iff_ne, ne_eq]
      exact ⟨⟨keysAbove_memSet hj (by omega), hb⟩, memSet_wf hr⟩

/-- A byte written is read back. -/
theorem memGet_memSet_same {k : Nat} {x : Byte} : ∀ {m : List Host.Cell}, Memory.wf m = true → memGet (memSet m k x) k = x
  | [], _ => by
    unfold memSet; split
    · next h => simp [memGet, h]
    · simp [memGet]
  | (j, b) :: r, h => by
    simp only [Memory.wf, Bool.and_eq_true, bne_iff_ne, ne_eq] at h
    obtain ⟨⟨hj, _⟩, hr⟩ := h
    unfold memSet
    repeat' split
    · next hlt hx => rw [memGet, if_neg (by omega), if_pos hlt, hx]
    · simp [memGet]
    · next hlt heq hx => rw [memGet_below hj (by omega), hx]
    · simp [memGet]
    · next hlt hne => rw [memGet, if_neg (by omega), if_neg hlt, memGet_memSet_same hr]

/-- No other byte changes. -/
theorem memGet_memSet_other {k a : Nat} {x : Byte} (hne : a ≠ k) : ∀ {m : List Host.Cell}, Memory.wf m = true → memGet (memSet m k x) a = memGet m a
  | [], _ => by
    unfold memSet; split
    · rfl
    · simp only [memGet]; rw [if_neg (by omega)]; simp
  | (j, b) :: r, h => by
    simp only [Memory.wf, Bool.and_eq_true, bne_iff_ne, ne_eq] at h
    obtain ⟨⟨hj, _⟩, hr⟩ := h
    unfold memSet
    repeat' split
    · rfl
    · next hlt hx =>
      rw [memGet, if_neg (by omega)]
      split
      · rw [memGet, if_neg (by omega), if_pos (by omega)]
      · rfl
    · next hlt heq hx =>
      rw [memGet, if_neg (by omega)]
      split
      · exact memGet_below hj (by omega)
      · rfl
    · next hlt heq hx =>
      subst heq
      rw [memGet, memGet, if_neg (Ne.symm hne), if_neg (Ne.symm hne)]
    · next hlt hne' =>
      rw [memGet, memGet]
      split
      · rfl
      · split
        · rfl
        · exact memGet_memSet_other hne hr

/-- A run of bytes written keeps the form. -/
theorem memWrite_wf {key data mask n : Nat} {m : List Host.Cell} (h : Memory.wf m = true) : Memory.wf (memWrite m key data mask n) = true := by
  induction n generalizing key data mask m with
  | zero => exact h
  | succ n ih => exact ih (memSet_wf h)

/-- No byte outside the run changes. -/
theorem memGet_memWrite_outside {key data mask n a : Nat} {m : List Host.Cell} (h : Memory.wf m = true) (ha : a < key ∨ key + n ≤ a) :
    memGet (memWrite m key data mask n) a = memGet m a := by
  induction n generalizing key data mask m with
  | zero => rfl
  | succ n ih =>
    rw [memWrite, ih (memSet_wf h) (by omega), memGet_memSet_other (by omega) h]

/-- The bytes of the run take the bits of the data that the mask holds. -/
theorem memGet_memWrite_inside {key data mask n i : Nat} {m : List Host.Cell} (h : Memory.wf m = true) (hi : i < n) :
    memGet (memWrite m key data mask n) (key + i) =
      (memGet m (key + i) &&& ~~~BitVec.ofNat 8 (mask / 256 ^ i)) ||| (BitVec.ofNat 8 (data / 256 ^ i) &&& BitVec.ofNat 8 (mask / 256 ^ i)) := by
  induction n generalizing key data mask m i with
  | zero => omega
  | succ n ih =>
    rw [memWrite]
    cases i with
    | zero => simp only [Nat.add_zero, pow_zero, Nat.div_one]; rw [memGet_memWrite_outside (memSet_wf h) (by omega), memGet_memSet_same h]
    | succ i =>
      have := ih (key := key + 1) (data := data / 256) (mask := mask / 256) (i := i)
        (memSet_wf (k := key) (x := (memGet m key &&& ~~~BitVec.ofNat 8 mask) ||| (BitVec.ofNat 8 data &&& BitVec.ofNat 8 mask)) h) (by omega)
      rw [show key + 1 + i = key + (i + 1) by omega] at this
      rw [this, memGet_memSet_other (by omega) h]
      simp [Nat.pow_succ, Nat.div_div_eq_div_mul, Nat.mul_comm]

theorem keysAbove_filter {a : Nat} (p : Host.Cell → Bool) : ∀ {m : List Host.Cell}, keysAbove a m = true → keysAbove a (m.filter p) = true
  | [], _ => rfl
  | (k, b) :: r, h => by
    simp only [keysAbove, Bool.and_eq_true] at h
    rw [List.filter_cons]; split
    · simp only [keysAbove, Bool.and_eq_true]; exact ⟨h.1, keysAbove_filter p h.2⟩
    · exact keysAbove_filter p h.2

/-- Bytes taken out keep the form. -/
theorem filter_wf (p : Host.Cell → Bool) : ∀ {m : List Host.Cell}, Memory.wf m = true → Memory.wf (m.filter p) = true
  | [], _ => rfl
  | (k, b) :: r, h => by
    simp only [Memory.wf, Bool.and_eq_true] at h
    rw [List.filter_cons]; split
    · simp only [Memory.wf, Bool.and_eq_true]; exact ⟨⟨keysAbove_filter p h.1.1, h.1.2⟩, filter_wf p h.2⟩
    · exact filter_wf p h.2

/-- Bytes written one after another keep the form. -/
theorem foldl_memSet_wf {α : Type} (f : α → Nat) (g : α → Byte) : ∀ (l : List α) {m : List Host.Cell}, Memory.wf m = true →
    Memory.wf (l.foldl (fun m c => memSet m (f c) (g c)) m) = true
  | [], _, h => h
  | _ :: r, _, h => foldl_memSet_wf f g r (memSet_wf h)

/-! ## The state's memory -/

/-- A fold keeps what each of its steps keeps. -/
theorem foldl_keeps {α β : Type} (p : β → Prop) (f : β → α → β) (hf : ∀ b a, p b → p (f b a)) : ∀ (l : List α) (b : β), p b → p (l.foldl f b)
  | [], _, h => h
  | a :: r, b, h => foldl_keeps p f hf r (f b a) (hf b a h)

theorem State.reset_mem_wf : Memory.wf State.reset.mem = true := rfl

theorem State.scrub_mem_wf {s : State} (words : List Nat) (h : Memory.wf s.mem = true) : Memory.wf (s.scrub words).mem = true := by
  unfold State.scrub; split
  · exact h
  · refine foldl_keeps (fun t : State => Memory.wf t.mem = true) _ (fun t w ht => ?_) _ _ h
    split
    · exact memWrite_wf ht
    · exact ht

@[simp] theorem State.countUnc_mem (s : State) (core n : Nat) : (s.countUnc core n).mem = s.mem := by
  unfold State.countUnc; split <;> rfl

@[simp] theorem State.countCorr_mem (s : State) (core n : Nat) : (s.countCorr core n).mem = s.mem := by
  unfold State.countCorr; split <;> rfl

@[simp] theorem State.correct_mem (s : State) (core : Nat) (words : List Nat) : (s.correct core words).mem = s.mem := by
  unfold State.correct; split
  · rfl
  · exact State.countCorr_mem _ _ _

/-- Words read at their homes keep the form. -/
theorem State.readWords_mem_wf {s : State} (core : Nat) (words : List Nat) (h : Memory.wf s.mem = true) :
    Memory.wf (s.readWords core words).mem = true := by
  unfold State.readWords; split
  · exact h
  · exact State.scrub_mem_wf _ (by simpa using h)

/-- A repair of the words that a write meets keeps the form. -/
theorem State.writeWords_mem_wf {s : State} (key n mask : Nat) (h : Memory.wf s.mem = true) :
    Memory.wf (s.writeWords key n mask).mem = true := by
  unfold State.writeWords; split
  · exact h
  · dsimp only; split
    · exact State.readWords_mem_wf _ _ h
    · exact h

@[simp] theorem State.monitorWrite_mem (s : State) (key n : Nat) : (s.monitorWrite key n).mem = s.mem := by
  unfold State.monitorWrite
  refine foldl_keeps (fun t : State => t.mem = s.mem) _ (fun t _ ht => ?_) _ _ rfl
  split
  · exact ht
  · exact ht

@[simp] theorem State.barrierWrite_mem (s : State) (key n : Nat) : (s.barrierWrite key n).mem = s.mem := by
  unfold State.barrierWrite
  refine foldl_keeps (fun t : State => t.mem = s.mem) _ (fun t w ht => ?_) _ _ rfl
  dsimp only
  repeat' split
  all_goals exact ht

/-- A write at its home keeps the form. -/
theorem State.writeHome_mem_wf {s : State} (key n data mask : Nat) (h : Memory.wf s.mem = true) :
    Memory.wf (s.writeHome key n data mask).mem = true := by
  unfold State.writeHome
  simp only [State.barrierWrite_mem, State.monitorWrite_mem]
  exact memWrite_wf (State.writeWords_mem_wf _ _ _ h)

/-- A migrated frame keeps the form. -/
theorem State.copyFrame_mem_wf {s : State} (old new size : Nat) (h : Memory.wf s.mem = true) : Memory.wf (s.copyFrame old new size).mem = true :=
  foldl_memSet_wf _ _ _ (filter_wf _ h)

/-- A placed instruction keeps the form. -/
theorem State.withFetchWord_mem_wf {s : State} (nbits w : Nat) (h : Memory.wf s.mem = true) : Memory.wf (s.withFetchWord nbits w).mem = true :=
  memWrite_wf h

end Sys2Proof.Machine
end

