-- ==== Sys2Proof/Laws/Engine.lean ====
section
/-! SUPPORT. What an engine reads where no error is about, and the bytes of save records. -/

set_option Elab.async false

namespace Sys2Proof.Machine

open Sys2Proof

/-! ## Bytes as numbers -/

theorem bytesNat_nil : bytesNat [] = 0 := rfl

theorem bytesNat_cons (b : Byte) (l : List Byte) : bytesNat (b :: l) = b.toNat + 256 * bytesNat l := by
  show b.toNat % 2 ^ 8 + 2 ^ 8 * packCodes 8 (l.map (·.toNat)) = _
  rw [Nat.mod_eq_of_lt b.isLt]; rfl

/-- The bytes of a list come back from its number, whatever follows them. -/
theorem unpackCodes_bytesNat : ∀ (l r : List Byte), (unpackCodes 8 (bytesNat (l ++ r)) l.length).map (BitVec.ofNat 8) = l
  | [], _ => rfl
  | b :: l, r => by
    rw [List.cons_append, bytesNat_cons, List.length_cons, unpackCodes, List.map_cons]
    have hb := b.isLt
    rw [show (b.toNat + 256 * bytesNat (l ++ r)) / 2 ^ 8 = bytesNat (l ++ r) by omega, unpackCodes_bytesNat l r]
    congr 1
    apply BitVec.eq_of_toNat_eq
    rw [BitVec.toNat_ofNat]; omega

/-- The bytes after a list, from their number. -/
theorem bytesNat_append_div : ∀ (l r : List Byte), bytesNat (l ++ r) / 2 ^ (8 * l.length) = bytesNat r
  | [], r => by simp
  | b :: l, r => by
    have hb := b.isLt
    rw [List.cons_append, bytesNat_cons, List.length_cons, show 8 * (l.length + 1) = 8 + 8 * l.length by omega, Nat.pow_add, ← Nat.div_div_eq_div_mul,
      show (b.toNat + 256 * bytesNat (l ++ r)) / 2 ^ 8 = bytesNat (l ++ r) by omega, bytesNat_append_div l r]

/-- A record that the device has written passes its digest. -/
theorem digestOk_saveRecord (content : List Nat) : digestOk (bytesNat (saveRecord content)) = true := by
  unfold saveRecord digestOk
  generalize hb : (Config.saveLayout content ++ List.replicate recordSize 0).take (recordSize - 64) = body
  have hl : body.length = recordSize - 64 := by
    rw [← hb, List.length_take, List.length_append, List.length_replicate]; omega
  simp only
  rw [← hl, unpackCodes_bytesNat, bytesNat_append_div]
  simp

theorem saveRecord_length (content : List Nat) : (saveRecord content).length = recordSize := by
  unfold saveRecord
  have h : 64 ≤ recordSize := by decide
  simp only [List.length_append, List.length_take, List.length_replicate]
  omega

/-! ## Reading -/

/-- A run of bytes is the run of its first part and the run of the rest. -/
theorem State.readNat_add (s : State) (key m n : Nat) : s.readNat key (m + n) = s.readNat key m + 2 ^ (8 * m) * s.readNat (key + m) n := by
  induction m generalizing key with
  | zero => simp [State.readNat]
  | succ m ih =>
    rw [show m + 1 + n = (m + n) + 1 by omega, State.readNat, State.readNat, ih (key + 1), show key + 1 + m = key + (m + 1) by omega,
      show 8 * (m + 1) = 8 + 8 * m by omega, Nat.pow_add]
    ring

/-- No word of the state holds an error. -/
def State.sound (s : State) : Prop := s.bad = [] ∧ s.soft = []

theorem State.readHome_sound {s : State} (h : s.sound) (core key n : Nat) : s.readHome core key n = (s.readNat key n, false, s) := by
  obtain ⟨hb, hs⟩ := h
  cases s
  simp only at hb hs
  subst hb hs
  simp [State.readHome, State.badAt, State.readWords]

/-- An engine reads bytes at their homes as they stand. -/
theorem State.engineRead_sound {s : State} (h : s.sound) (core stamp key n : Nat) (ea : Word) (tr : List Trans)
    (hr : ∀ k, key ≤ k → k < key + n → s.reachable core k = true) :
    s.engineRead core stamp ⟨key, n, .home, ea, tr⟩ = (s.readNat key n, false, s) := by
  have lines : ∀ (fuel key n off acc : Nat), n = 0 ∨ n + key % 64 ≤ 64 * fuel → (∀ k, key ≤ k → k < key + n → s.reachable core k = true) →
      (cutLines key n off fuel).foldl (fun acc p =>
        let (x, b, s) := acc.2.2.engineLine core stamp .home p.1 p.2.1
        (acc.1 + x * 2 ^ (8 * p.2.2), acc.2.1 || b, s)) (acc, false, s) = (acc + 2 ^ (8 * off) * s.readNat key n, false, s) := by
    intro fuel
    induction fuel with
    | zero => intro key n off acc hf _; obtain rfl : n = 0 := by omega
              simp [cutLines, State.readNat]
    | succ fuel ih =>
      intro key n off acc hf hr
      by_cases hn : n = 0
      · subst hn; simp [cutLines, State.readNat]
      · rw [cutLines, if_neg hn]
        simp only [List.foldl_cons]
        have hk := hr key (by omega) (by omega)
        generalize hm : min n (64 - key % 64) = m
        have hmn : m ≤ n := by omega
        have line : s.engineLine core stamp .home key m = (s.readNat key m, false, s) := by
          simp [State.engineLine, State.engineSector, hk, State.readHome_sound h]
        simp only [line, Bool.or_self]
        rw [ih (key + m) (n - m) (off + m) _ (by omega) (fun k h1 h2 => hr k (by omega) (by omega))]
        have := s.readNat_add key m (n - m)
        rw [show m + (n - m) = n by omega] at this
        rw [this, show 8 * (off + m) = 8 * off + 8 * m by omega, Nat.pow_add]
        congr 1
        ring
  have := lines (n / 64 + 2) key n 0 0 (by omega) hr
  simpa [State.engineRead] using this

/-- The one record of an area of one access. -/
theorem State.records_sound {s : State} (h : s.sound) (w : Work) (key : Nat) (ea : Word) (tr : List Trans)
    (hr : ∀ k, key ≤ k → k < key + recordSize → s.reachable w.core k = true) :
    s.records w [⟨key, recordSize, .home, ea, tr⟩] 1 = ([s.readNat key recordSize], s) := by
  have hd := State.engineRead_sound h w.core w.stamp key recordSize 0 [] hr
  have hn : recordSize ≠ 0 := by decide
  unfold State.records State.readArea
  generalize recordSize = n at hd hn
  have hs : sliceOf [(key, n, Via.home)] 0 n = [(key, n, .home)] := by simp [sliceOf, hn]
  simp only [List.range_one, List.foldl_cons, List.foldl_nil, List.map_cons, List.map_nil, Nat.zero_mul, hs, State.readPieces, hd]
  simp

/-- Bytes listed one after another from a key. -/
def cellsFrom (key : Nat) : List Byte → List Host.Cell
  | [] => []
  | b :: r => (key, b) :: cellsFrom (key + 1) r

theorem memGet_append_above {a : Nat} {r : List Host.Cell} : ∀ {l : List Host.Cell}, (∀ c ∈ l, c.1 < a) → memGet (l ++ r) a = memGet r a
  | [], _ => rfl
  | (k, b) :: l, h => by
    have hk := h (k, b) (by simp)
    rw [List.cons_append, memGet, if_neg (by simp at hk; omega), if_neg (by simp at hk; omega)]
    exact memGet_append_above (fun c hc => h c (by simp [hc]))

/-- What is read of bytes listed one after another. -/
theorem State.readNat_cells {s : State} (h : s.sound) (hf : ∀ k, s.fwd k = k) : ∀ (l : List Byte) (key : Nat) (pre : List Host.Cell),
    (∀ c ∈ pre, c.1 < key) → s.mem = pre ++ cellsFrom key l → s.readNat key l.length = bytesNat l
  | [], _, _, _, _ => rfl
  | b :: l, key, pre, hp, hm => by
    have ih := State.readNat_cells h hf l (key + 1) (pre ++ [(key, b)])
      (fun c hc => by simp only [List.mem_append, List.mem_singleton] at hc; rcases hc with hc | rfl
                      · have := hp c hc; omega
                      · simp) (by rw [hm]; simp [cellsFrom])
    rw [List.length_cons, State.readNat, ih, bytesNat_cons]
    simp only [hf, h.1, List.contains_nil, Bool.false_eq_true, ↓reduceIte]
    rw [hm, memGet_append_above hp]
    simp [cellsFrom, memGet]

end Sys2Proof.Machine
end

