-- ==== Sys2Proof/Laws/Events.lean ====
section
/-! SUPPORT. What an event on an item in flight does before its own effect: when it is performed, when a release is sent, and when it is
not due. -/

set_option Elab.async false

namespace Sys2Proof.Machine

open Sys2Proof

/-- An item that lands has its effect, with what the links have made of its data. -/
theorem State.begin_lands {s : State} {k : Nat} {w : Work} (h : s.lands k w) (act : Work → State → Out) :
    s.begin k act = act (s.linkData w).1 ((s.linkData w).2.arrive w) := by
  obtain ⟨hf, hc, hn, hd, ha, hb, hm⟩ := h
  have hs : (s.gone w.deps && w.sending) = false := by
    cases hr : w.release with
    | false => simp [Work.sending, hr]
    | true => simp [Work.sending, Work.unsent, hn, hd hr]
  have hp : (!s.clear w || (channelHomed w.home).any (fun c => !s.channelAwake c) || s.betweenLanes w || s.holdsArrival w) = false := by
    cases hh : channelHomed w.home with
    | none => simp [hc, hb, hm]
    | some c => simp [hc, hb, hm, ha c hh]
  simp only [State.begin, hf, hs, hp, State.arrive]
  rfl

/-- An item that is due has its effect, once its channel knows of it. -/
theorem State.begin_due {s : State} {k : Nat} {w : Work} (h : s.due k w) (act : Work → State → Out) :
    s.begin k act = act w (s.arrive w) := by
  rw [State.begin_lands h.1]
  simp [State.linkData, h.2]

/-- Nothing happens for a number that no item has. -/
theorem State.begin_none {s : State} {k : Nat} (h : s.findWork k = none) (act : Work → State → Out) :
    s.begin k act = .fault .noSuchEvent := by simp only [State.begin, h]

/-- An item that something keeps back is not due, unless it is a release that may be sent. -/
theorem State.begin_kept {s : State} {k : Nat} {w : Work} (hf : s.findWork k = some w)
    (hs : (s.gone w.deps && w.sending) = false) (hc : s.clear w = false) (act : Work → State → Out) :
    s.begin k act = .fault .noSuchEvent := by
  simp [State.begin, hf, hs, hc]

/-- A release whose conditions hold, with nothing to write back, is sent: it takes its place behind what has been sent. -/
theorem State.begin_sends {s : State} {k : Nat} {w : Work} (hf : s.findWork k = some w) (hg : s.gone w.deps = true)
    (hr : w.release = true) (hn : w.flush = none) (hu : w.unsent = true) (hm : s.mayBeSent w = true) (act : Work → State → Out) :
    s.begin k act = .next (s.sendNow w) := by
  simp [State.begin, Work.sending, hf, hg, hr, hn, hu, hm]

/-- A release of scope .die or .sys whose conditions hold first has its core's dirty sectors written back, and waits for those
write-backs. -/
theorem State.begin_flushes {s : State} {k scope : Nat} {w : Work} (hf : s.findWork k = some w) (hg : s.gone w.deps = true)
    (hr : w.release = true) (hn : w.flush = some scope) (hm : s.mayBeSent w = true) (hi : (s.flushFor w.core scope).1 ≠ [])
    (act : Work → State → Out) :
    s.begin k act = .next ((s.flushFor w.core scope).2.replaceWork { w with deps := (s.flushFor w.core scope).1, flush := none }) := by
  have he : (s.flushFor w.core scope).1.isEmpty = false := by
    cases h : (s.flushFor w.core scope).1 with
    | nil => exact absurd h hi
    | cons a r => rfl
  simp [State.begin, Work.sending, hf, hg, hr, hn, hm, he]

end Sys2Proof.Machine
end

