-- ==== Sys2Proof/Laws/Fields.lean ====
section
/-! SUPPORT. How the fields of a word come apart again: one lemma for each field of R26. -/

set_option Elab.async false

namespace Sys2Proof

open BitVec

/-- Bits of an appended pair from the low part. -/
theorem extract_append_low {m n : Nat} (x : BitVec m) (y : BitVec n) : (x ++ y).extractLsb' 0 n = y := by
  apply eq_of_getLsbD_eq; intro i h
  simp [getLsbD_append, h]

/-- Bits of an appended pair from the high part. -/
theorem extract_append_high {m n : Nat} (x : BitVec m) (y : BitVec n) : (x ++ y).extractLsb' n m = x := by
  apply eq_of_getLsbD_eq; intro i h
  simp [getLsbD_append, h]

/-- A value cut at n and put together again. -/
theorem append_extract {m n : Nat} (x : BitVec (m + n)) : x.extractLsb' n m ++ x.extractLsb' 0 n = x := by
  apply eq_of_getLsbD_eq; intro i h
  simp only [getLsbD_append, getLsbD_extractLsb']
  by_cases hi : i < n
  · simp [hi]
  · simp [hi, show i - n < m by omega, show n + (i - n) = i by omega]

/-- The lower of two neighbouring cuts, put together. -/
theorem append_extract_at {w m n : Nat} (x : BitVec w) (k : Nat) :
    x.extractLsb' (k + n) m ++ x.extractLsb' k n = x.extractLsb' k (m + n) := by
  apply eq_of_getLsbD_eq; intro i h
  simp only [getLsbD_append, getLsbD_extractLsb']
  by_cases hi : i < n
  · simp [hi, show i < m + n by omega]
  · simp [hi, show i - n < m by omega, show k + n + (i - n) = k + i by omega, h]

/-- The whole of a value. -/
theorem extract_all {n : Nat} (x : BitVec n) : x.extractLsb' 0 n = x := by
  apply eq_of_getLsbD_eq; intro i h; simp [h]

variable (p w : Bool) (mj a b c fn : BitVec 6)

/-- The variant of a masked form is the one it was given. -/
theorem Fields.variant_masked (m v : BitVec 3) : Fields.variant ⟨p, w, mj, a, b, c, m ++ v⟩ = v := extract_append_low m v

/-- The mask of a masked form is the one it was given. -/
theorem Fields.mask_masked (m v : BitVec 3) : Fields.mask ⟨p, w, mj, a, b, c, m ++ v⟩ = m := extract_append_high m v

/-- The op of a CM word. -/
theorem Fields.op_cm (v x : BitVec 3) : Fields.op ⟨p, w, mj, a, b, v ++ x, fn⟩ = v := extract_append_high v x

/-- The offset of a CM word. -/
theorem Fields.off9_cm (v : BitVec 3) (x : BitVec 9) :
    Fields.off9 ⟨p, w, mj, a, b, v ++ x.extractLsb' 6 3, x.extractLsb' 0 6⟩ = x := by
  unfold Fields.off9
  rw [extract_append_low]; exact append_extract (m := 3) (n := 6) x

/-- The cond of a CB word. -/
theorem Fields.cond_cb (v x : BitVec 3) : Fields.cond ⟨p, w, mj, v ++ x, b, c, fn⟩ = v := extract_append_high v x

/-- a of a CB word. -/
theorem Fields.cbA_cb (v y : BitVec 3) (x : BitVec 6) :
    Fields.cbA ⟨p, w, mj, v ++ x.extractLsb' 3 3, x.extractLsb' 0 3 ++ y, c, fn⟩ = x := by
  unfold Fields.cbA
  rw [extract_append_low, extract_append_high]; exact append_extract (m := 3) (n := 3) x

/-- b of a CB word. -/
theorem Fields.cbB_cb (v y : BitVec 3) (x : BitVec 6) :
    Fields.cbB ⟨p, w, mj, a, v ++ x.extractLsb' 3 3, x.extractLsb' 0 3 ++ y, fn⟩ = x := by
  unfold Fields.cbB
  rw [extract_append_low, extract_append_high]; exact append_extract (m := 3) (n := 3) x

/-- The immediate of an AI word. -/
theorem Fields.imm12_ai (x : BitVec 12) : Fields.imm12 ⟨p, w, mj, a, b, x.extractLsb' 6 6, x.extractLsb' 0 6⟩ = x :=
  append_extract (m := 6) (n := 6) x

/-- The immediate of an AK word. -/
theorem Fields.imm16_ak (h : BitVec 2) (x : BitVec 16) :
    Fields.imm16 ⟨p, w, mj, a, h ++ x.extractLsb' 12 4, x.extractLsb' 6 6, x.extractLsb' 0 6⟩ = x := by
  unfold Fields.imm16
  rw [extract_append_low, append_extract_at (m := 4) (n := 6) x 6]; exact append_extract (m := 10) (n := 6) x

/-- hw of an AK word. -/
theorem Fields.hw_ak (h : BitVec 2) (x : BitVec 4) : Fields.hw ⟨p, w, mj, a, h ++ x, c, fn⟩ = h := extract_append_high h x

/-- The number of b and c. -/
theorem Fields.number_bc (x : BitVec 12) : Fields.number ⟨p, w, mj, a, x.extractLsb' 6 6, x.extractLsb' 0 6, fn⟩ = x :=
  append_extract (m := 6) (n := 6) x

/-- The 24 bits of a CJ word from any multiple of 24 of an offset. -/
theorem Fields.off24_at {n : Nat} (x : BitVec n) (k : Nat) :
    Fields.off24 ⟨p, w, mj, x.extractLsb' (k + 18) 6, x.extractLsb' (k + 12) 6, x.extractLsb' (k + 6) 6, x.extractLsb' k 6⟩ =
      x.extractLsb' k 24 := by
  unfold Fields.off24
  rw [append_extract_at (m := 6) (n := 6) x (k + 12), append_extract_at (m := 12) (n := 6) x (k + 6),
    append_extract_at (m := 18) (n := 6) x k]

/-- The 24 bits of a CJ word. -/
theorem Fields.off24_cj (x : BitVec 24) :
    Fields.off24 ⟨p, w, mj, x.extractLsb' 18 6, x.extractLsb' 12 6, x.extractLsb' 6 6, x.extractLsb' 0 6⟩ = x :=
  (Fields.off24_at p w mj x 0).trans (extract_all x)

/-- A word's fields are the ones it was put together from. -/
theorem splitWord_joinWord (f : Fields) : splitWord (joinWord f) = f := by
  obtain ⟨p, w, mj, a, b, c, fn⟩ := f
  have hfn : (joinWord ⟨p, w, mj, a, b, c, fn⟩).extractLsb' 0 6 = fn := extract_append_low _ _
  have cut {m n k j : Nat} (x : BitVec m) (y : BitVec n) (h : n ≤ k) :
      (x ++ y).extractLsb' k j = x.extractLsb' (k - n) j := by
    apply eq_of_getLsbD_eq; intro i hi
    simp [getLsbD_append, show ¬ k + i < n by omega, show k + i - n = k - n + i by omega, hi]
  have top {m n : Nat} (x : BitVec m) (y : BitVec n) (k : Nat) (h : n ≤ k) : (x ++ y).getLsbD k = x.getLsbD (k - n) := by
    simp [getLsbD_append, show ¬ k < n by omega]
  simp only [splitWord, hfn, Fields.mk.injEq]
  unfold joinWord
  refine ⟨?_, ?_, ?_, ?_, ?_, ?_, trivial⟩
  · rw [top _ _ _ (by omega), top _ _ _ (by omega), top _ _ _ (by omega), top _ _ _ (by omega), top _ _ _ (by omega), top _ _ _ (by omega)]
    dsimp only
    cases p <;> decide
  · rw [top _ _ _ (by omega), top _ _ _ (by omega), top _ _ _ (by omega), top _ _ _ (by omega), top _ _ _ (by omega)]
    dsimp only
    cases p <;> cases w <;> decide
  · rw [cut _ _ (by omega), cut _ _ (by omega), cut _ _ (by omega), cut _ _ (by omega)]; exact extract_append_low _ _
  · rw [cut _ _ (by omega), cut _ _ (by omega), cut _ _ (by omega)]; exact extract_append_low _ _
  · rw [cut _ _ (by omega), cut _ _ (by omega)]; exact extract_append_low _ _
  · rw [cut _ _ (by omega)]; exact extract_append_low _ _

end Sys2Proof
end

