-- ==== Sys2Proof/Laws/Operands.lean ====
section
/-! SUPPORT. What reading operands, writing results and completing do when no queue is named. -/

set_option Elab.async false

namespace Sys2Proof.Machine

open Sys2Proof

theorem registers_cons {c : Opd} {l : List Opd} : registers (c :: l) ↔ c.isQueue = false ∧ registers l := by
  simp [registers]

@[simp] theorem registers_nil : registers [] := by simp [registers]

/-- No use of an instruction names a queue. -/
def noQueue (us : List Use) : Prop := ∀ u ∈ us, u.code.isQueue = false

theorem popsOf_noQueue {us : List Use} (h : noQueue us) : popsOf us = [] := by
  simp only [popsOf, List.map_eq_nil_iff, List.filter_eq_nil_iff]
  intro u hu; simp [h u hu]

theorem pushesOf_noQueue {us : List Use} (h : noQueue us) : pushesOf us = [] := by
  simp only [pushesOf, List.map_eq_nil_iff, List.filter_eq_nil_iff]
  intro u hu; simp [h u hu]

theorem popsAny_noQueue {us : List Use} (h : noQueue us) : popsAny us = false := by simp [popsAny, popsOf_noQueue h]

/-- Registers alone are always ready. -/
theorem queuesReady_noQueue (c : Core) {us : List Use} (h : noQueue us) : c.queuesReady us = true := by
  simp [Core.queuesReady, popsOf_noQueue h, pushesOf_noQueue h, Core.roomFor]

/-- Registers that the mode provides pass an instruction's operand checks. -/
theorem withOperands_noQueue {us : List Use} {s : State} (k : State → Out) (h : noQueue us) (hm : s.me.beyondMode us = false) :
    withOperands us s k = k s := by
  simp [withOperands, hm, queuesReady_noQueue _ h]

/-- No vector field: no register is beyond the mode. -/
theorem beyondMode_scalar (c : Core) {us : List Use} (h : us.all (fun u => u.pos != .vector) = true) : c.beyondMode us = false := by
  simp only [List.all_eq_true] at h
  simp only [Core.beyondMode, List.any_eq_false]
  intro u hu
  have := h u hu
  simp_all

theorem readS_register {s : State} {r : Opd} (h : r.isQueue = false) : s.readS r = (s.scalar r, s) := by
  unfold State.readS State.scalar
  rw [h]
  by_cases hr : r = 0
  · rw [if_pos hr, if_pos hr]; rfl
  · rw [if_neg hr, if_neg hr]; rfl

theorem readV_register {s : State} {r : Opd} (h : r.isQueue = false) : s.readV r = (s.vector r, s) := by
  simp [State.readV, State.vector, h]

theorem readM_eq (s : State) (r : Opd) : s.readM r = s.maskReg r := rfl

theorem setS_eq (t : Thread) (d : Opd) (x : Word) : t.setS d.toNat x = t.withScalar d x := by
  unfold Thread.setS Thread.withScalar
  have : (d.toNat = 0) = (d = 0) := by rw [← BitVec.toNat_inj]; rfl
  simp only [this]

theorem resultS_register {s : State} {d : Opd} (x : Word) (h : d.isQueue = false) :
    s.resultS d x false = s.setThread (s.thread.withScalar d x) := by
  simp [State.resultS, State.writeS, h, setS_eq]

/-- A thread update that touches none of what completion sets. -/
def Passes (f : Thread → Thread) : Prop :=
  ∀ t pc slot pend popped promised sources,
    f { t with pc := pc, slot := slot, pend := pend, popped := popped, promised := promised, sources := sources } =
      { f t with pc := pc, slot := slot, pend := pend, popped := popped, promised := promised, sources := sources }

theorem passes_withScalar (d : Opd) (x : Word) : Passes (fun t => t.withScalar d x) := by
  intro t pc slot pend popped promised sources
  simp only [Thread.withScalar]
  by_cases h : d = 0
  · simp only [if_pos h]
  · simp only [if_neg h]

theorem passes_id : Passes id := fun _ _ _ _ _ _ _ => rfl

/-- An update that keeps what completion sets leaves the address alone. -/
theorem Passes.pc {f : Thread → Thread} (hf : Passes f) (t : Thread) : (f t).pc = t.pc :=
  (congrArg Thread.pc (hf t t.pc t.slot t.pend t.popped t.promised t.sources) :)

theorem onlyThread_setThread (s : State) (x : Thread) (r : IssueResult) : OnlyThread s { s.setThread x with last := r } := by
  have hme : State.me { s.setThread x with last := r } = s.me.setThread s.curSlot x := State.me_setThread s x
  refine ⟨rfl, fun c hc => State.core_setThread_other s x hc, ?_, fun k hk => ?_⟩
  · rw [hme]; rfl
  · rw [hme, Core.thread_setThread_other _ _ hk]

/-- Completing replaces the acting thread by the one that goes on. -/
theorem complete_eq (s : State) : s.complete = { s.setThread s.after with last := .completed } := by
  refine congrArg (fun y => ({ s.setThread y with last := .completed } : State)) ?_
  cases hs : s.snap with
  | none => simp [State.after, hs]
  | some old => simp [State.after, hs]

/-- Writing the acting thread does not move its next address, if its address stays. -/
theorem nextPc_setThread {s : State} {x : Thread} (hp : s.placed) (h : x.pc = s.thread.pc) : (s.setThread x).nextPc = s.nextPc := by
  have hsrc : (s.setThread x).pc = s.pc := by
    simp only [State.pc, State.src, State.setThread_snap, State.thread_setThread _ _ hp]
    cases s.snap <;> simp [h]
  simp only [State.nextPc, hsrc]
  rfl

/-- The thread that goes on after an update that keeps what completion sets. -/
theorem after_setThread {s : State} {f : Thread → Thread} (hp : s.placed) (hf : Passes f) : (s.setThread (f s.thread)).after = f s.after := by
  simp only [State.after, nextPc_setThread hp (hf.pc _), State.thread_setThread _ _ hp, hf.pc, State.setThread_snap]
  exact (hf s.thread _ _ _ _ _ _).symm

/-- What completing does after an update of the acting thread. -/
theorem complete_setThread {s : State} {f : Thread → Thread} (hp : s.placed) (hf : Passes f) :
    (s.setThread (f s.thread)).complete = { s.setThread (f s.after) with last := .completed } := by
  rw [complete_eq, after_setThread hp hf, State.setThread_setThread]

/-- An update of the acting thread, completed. -/
theorem writes_of_eq {i : Instr} {s : State} {f : Thread → Thread} (hp : s.placed) (hf : Passes f)
    (h : exec i s = .next (s.setThread (f s.thread)).complete) : Writes i s f := by
  rw [complete_setThread hp hf] at h
  exact ⟨_, h, rfl, onlyThread_setThread .., State.thread_setThread s _ hp⟩

end Sys2Proof.Machine
end

