-- ==== Sys2Proof/Laws/PerInstr.lean ====
section
/-! SUPPORT. Decoding undoes encoding, instruction by instruction, at the fields of a word (R26, R33, R34). -/

set_option Elab.async false

namespace Sys2Proof.Laws.RoundTrip

open Sys2Proof

/-- The fields of a one-word instruction's encoding decode to it. -/
def Statement (i : Instr) : Prop := i.isEvent = false → (∀ off, i ≠ .jlL off) → decodeMajor (encodeFields i) = .ok i

/-- Bits 5 and 4 of an atomic's fn (R253). -/
theorem fn_amo {w : Bool} {v : BitVec 4} :
    ((0 : BitVec 1) ++ BitVec.ofBool w ++ v).getLsbD 5 = false ∧ ((0 : BitVec 1) ++ BitVec.ofBool w ++ v).getLsbD 4 = w := by
  revert v w; decide

theorem add d a b : Statement (.add d a b) := fun _ _ => rfl
theorem sub d a b : Statement (.sub d a b) := fun _ _ => rfl
theorem and d a b : Statement (.and d a b) := fun _ _ => rfl
theorem or d a b : Statement (.or d a b) := fun _ _ => rfl
theorem xor d a b : Statement (.xor d a b) := fun _ _ => rfl
theorem andn d a b : Statement (.andn d a b) := fun _ _ => rfl
theorem shl d a b : Statement (.shl d a b) := fun _ _ => rfl
theorem shr d a b : Statement (.shr d a b) := fun _ _ => rfl
theorem sra d a b : Statement (.sra d a b) := fun _ _ => rfl
theorem rol d a b : Statement (.rol d a b) := fun _ _ => rfl
theorem min d a b : Statement (.min d a b) := fun _ _ => rfl
theorem max d a b : Statement (.max d a b) := fun _ _ => rfl
theorem minu d a b : Statement (.minu d a b) := fun _ _ => rfl
theorem maxu d a b : Statement (.maxu d a b) := fun _ _ => rfl
theorem mul d a b : Statement (.mul d a b) := fun _ _ => rfl
theorem mulh d a b : Statement (.mulh d a b) := fun _ _ => rfl
theorem mulhu d a b : Statement (.mulhu d a b) := fun _ _ => rfl
theorem div d a b : Statement (.div d a b) := fun _ _ => rfl
theorem divu d a b : Statement (.divu d a b) := fun _ _ => rfl
theorem rem d a b : Statement (.rem d a b) := fun _ _ => rfl
theorem remu d a b : Statement (.remu d a b) := fun _ _ => rfl
theorem clz d a : Statement (.clz d a) := fun _ _ => rfl
theorem ctz d a : Statement (.ctz d a) := fun _ _ => rfl
theorem popc d a : Statement (.popc d a) := fun _ _ => rfl
theorem sextB d a : Statement (.sextB d a) := fun _ _ => rfl
theorem sextH d a : Statement (.sextH d a) := fun _ _ => rfl
theorem sextW d a : Statement (.sextW d a) := fun _ _ => rfl
theorem zextB d a : Statement (.zextB d a) := fun _ _ => rfl
theorem zextH d a : Statement (.zextH d a) := fun _ _ => rfl
theorem zextW d a : Statement (.zextW d a) := fun _ _ => rfl
theorem cmpEq d a b : Statement (.cmpEq d a b) := fun _ _ => rfl
theorem cmpNe d a b : Statement (.cmpNe d a b) := fun _ _ => rfl
theorem cmpLt d a b : Statement (.cmpLt d a b) := fun _ _ => rfl
theorem cmpGe d a b : Statement (.cmpGe d a b) := fun _ _ => rfl
theorem cmpLtu d a b : Statement (.cmpLtu d a b) := fun _ _ => rfl
theorem cmpGeu d a b : Statement (.cmpGeu d a b) := fun _ _ => rfl
theorem sel d a b c : Statement (.sel d a b c) := fun _ _ => rfl
theorem addi d a imm : Statement (.addi d a imm) := fun _ _ => congrArg (fun x => Except.ok (Instr.addi d a x)) (Fields.imm12_ai ..)
theorem andi d a imm : Statement (.andi d a imm) := fun _ _ => congrArg (fun x => Except.ok (Instr.andi d a x)) (Fields.imm12_ai ..)
theorem ori d a imm : Statement (.ori d a imm) := fun _ _ => congrArg (fun x => Except.ok (Instr.ori d a x)) (Fields.imm12_ai ..)
theorem xori d a imm : Statement (.xori d a imm) := fun _ _ => congrArg (fun x => Except.ok (Instr.xori d a x)) (Fields.imm12_ai ..)
theorem movi d hw imm : Statement (.movi d hw imm) := fun _ _ =>
  (congrArg (fun x => Except.ok (Instr.movi d x _)) (Fields.hw_ak ..)).trans (congrArg (fun x => Except.ok (Instr.movi d hw x)) (Fields.imm16_ak ..))
theorem movk d hw imm : Statement (.movk d hw imm) := fun _ _ =>
  (congrArg (fun x => Except.ok (Instr.movk d x _)) (Fields.hw_ak ..)).trans (congrArg (fun x => Except.ok (Instr.movk d hw x)) (Fields.imm16_ak ..))
theorem fadd d a b : Statement (.fadd d a b) := fun _ _ => rfl
theorem fsub d a b : Statement (.fsub d a b) := fun _ _ => rfl
theorem fmul d a b : Statement (.fmul d a b) := fun _ _ => rfl
theorem fmin d a b : Statement (.fmin d a b) := fun _ _ => rfl
theorem fmax d a b : Statement (.fmax d a b) := fun _ _ => rfl
theorem fdiv d a b : Statement (.fdiv d a b) := fun _ _ => rfl
theorem fsqrt d a : Statement (.fsqrt d a) := fun _ _ => rfl
theorem fclass d a : Statement (.fclass d a) := fun _ _ => rfl
theorem fcmpEq d a b : Statement (.fcmpEq d a b) := fun _ _ => rfl
theorem fcmpLt d a b : Statement (.fcmpLt d a b) := fun _ _ => rfl
theorem fcmpLe d a b : Statement (.fcmpLe d a b) := fun _ _ => rfl
theorem fcmpUn d a b : Statement (.fcmpUn d a b) := fun _ _ => rfl
theorem fsgnJ d a b : Statement (.fsgnJ d a b) := fun _ _ => rfl
theorem fsgnN d a b : Statement (.fsgnN d a b) := fun _ _ => rfl
theorem fsgnX d a b : Statement (.fsgnX d a b) := fun _ _ => rfl
theorem fcvtFI d a : Statement (.fcvtFI d a) := fun _ _ => rfl
theorem fcvtFIu d a : Statement (.fcvtFIu d a) := fun _ _ => rfl
theorem fcvtIF d a : Statement (.fcvtIF d a) := fun _ _ => rfl
theorem fcvtIuF d a : Statement (.fcvtIuF d a) := fun _ _ => rfl
theorem ffma d a b c : Statement (.ffma d a b c) := fun _ _ => rfl
theorem vadd d a b m : Statement (.vadd d a b m) := by
  intro _ _
  change decode2A ⟨false, false, 0x2A, d, a, b, (m ++ (0 : BitVec 3))⟩ = _
  rw [decode2A, Fields.variant_masked]
  exact congrArg (fun x => Except.ok (Instr.vadd d a b x)) (Fields.mask_masked ..)
theorem vsub d a b m : Statement (.vsub d a b m) := by
  intro _ _
  change decode2A ⟨false, false, 0x2A, d, a, b, (m ++ (1 : BitVec 3))⟩ = _
  rw [decode2A, Fields.variant_masked]
  exact congrArg (fun x => Except.ok (Instr.vsub d a b x)) (Fields.mask_masked ..)
theorem vmul d a b m : Statement (.vmul d a b m) := by
  intro _ _
  change decode2A ⟨false, false, 0x2A, d, a, b, (m ++ (2 : BitVec 3))⟩ = _
  rw [decode2A, Fields.variant_masked]
  exact congrArg (fun x => Except.ok (Instr.vmul d a b x)) (Fields.mask_masked ..)
theorem vmin d a b m : Statement (.vmin d a b m) := by
  intro _ _
  change decode2A ⟨false, false, 0x2A, d, a, b, (m ++ (3 : BitVec 3))⟩ = _
  rw [decode2A, Fields.variant_masked]
  exact congrArg (fun x => Except.ok (Instr.vmin d a b x)) (Fields.mask_masked ..)
theorem vmax d a b m : Statement (.vmax d a b m) := by
  intro _ _
  change decode2A ⟨false, false, 0x2A, d, a, b, (m ++ (4 : BitVec 3))⟩ = _
  rw [decode2A, Fields.variant_masked]
  exact congrArg (fun x => Except.ok (Instr.vmax d a b x)) (Fields.mask_masked ..)
theorem vdiv d a b m : Statement (.vdiv d a b m) := by
  intro _ _
  change decode2A ⟨false, false, 0x2A, d, a, b, (m ++ (5 : BitVec 3))⟩ = _
  rw [decode2A, Fields.variant_masked]
  exact congrArg (fun x => Except.ok (Instr.vdiv d a b x)) (Fields.mask_masked ..)
theorem vsqrt d a m : Statement (.vsqrt d a m) := by
  intro _ _
  change decode2A ⟨false, false, 0x2A, d, a, 0, (m ++ (6 : BitVec 3))⟩ = _
  rw [decode2A, Fields.variant_masked]
  exact congrArg (fun x => Except.ok (Instr.vsqrt d a x)) (Fields.mask_masked ..)
theorem vabs d a m : Statement (.vabs d a m) := by
  intro _ _
  change decode2A ⟨false, false, 0x2A, d, a, 0, (m ++ (7 : BitVec 3))⟩ = _
  rw [decode2A, Fields.variant_masked]
  exact congrArg (fun x => Except.ok (Instr.vabs d a x)) (Fields.mask_masked ..)
theorem vexp2 d a m : Statement (.vexp2 d a m) := by
  intro _ _
  change decode2B ⟨false, false, 0x2B, d, a, 0, (m ++ (0 : BitVec 3))⟩ = _
  rw [decode2B, Fields.variant_masked]
  exact congrArg (fun x => Except.ok (Instr.vexp2 d a x)) (Fields.mask_masked ..)
theorem vlog2 d a m : Statement (.vlog2 d a m) := by
  intro _ _
  change decode2B ⟨false, false, 0x2B, d, a, 0, (m ++ (1 : BitVec 3))⟩ = _
  rw [decode2B, Fields.variant_masked]
  exact congrArg (fun x => Except.ok (Instr.vlog2 d a x)) (Fields.mask_masked ..)
theorem vrcp d a m : Statement (.vrcp d a m) := by
  intro _ _
  change decode2B ⟨false, false, 0x2B, d, a, 0, (m ++ (2 : BitVec 3))⟩ = _
  rw [decode2B, Fields.variant_masked]
  exact congrArg (fun x => Except.ok (Instr.vrcp d a x)) (Fields.mask_masked ..)
theorem vrsq d a m : Statement (.vrsq d a m) := by
  intro _ _
  change decode2B ⟨false, false, 0x2B, d, a, 0, (m ++ (3 : BitVec 3))⟩ = _
  rw [decode2B, Fields.variant_masked]
  exact congrArg (fun x => Except.ok (Instr.vrsq d a x)) (Fields.mask_masked ..)
theorem vneg d a m : Statement (.vneg d a m) := by
  intro _ _
  change decode2B ⟨false, false, 0x2B, d, a, 0, (m ++ (4 : BitVec 3))⟩ = _
  rw [decode2B, Fields.variant_masked]
  exact congrArg (fun x => Except.ok (Instr.vneg d a x)) (Fields.mask_masked ..)
theorem vfma d a b c : Statement (.vfma d a b c) := fun _ _ => rfl
theorem vfnma d a b c : Statement (.vfnma d a b c) := fun _ _ => rfl
theorem vaddI d a b m : Statement (.vaddI d a b m) := by
  intro _ _
  change decode2E ⟨false, false, 0x2E, d, a, b, (m ++ (0 : BitVec 3))⟩ = _
  rw [decode2E, Fields.variant_masked]
  exact congrArg (fun x => Except.ok (Instr.vaddI d a b x)) (Fields.mask_masked ..)
theorem vsubI d a b m : Statement (.vsubI d a b m) := by
  intro _ _
  change decode2E ⟨false, false, 0x2E, d, a, b, (m ++ (1 : BitVec 3))⟩ = _
  rw [decode2E, Fields.variant_masked]
  exact congrArg (fun x => Except.ok (Instr.vsubI d a b x)) (Fields.mask_masked ..)
theorem vmulI d a b m : Statement (.vmulI d a b m) := by
  intro _ _
  change decode2E ⟨false, false, 0x2E, d, a, b, (m ++ (2 : BitVec 3))⟩ = _
  rw [decode2E, Fields.variant_masked]
  exact congrArg (fun x => Except.ok (Instr.vmulI d a b x)) (Fields.mask_masked ..)
theorem vand d a b m : Statement (.vand d a b m) := by
  intro _ _
  change decode2E ⟨false, false, 0x2E, d, a, b, (m ++ (3 : BitVec 3))⟩ = _
  rw [decode2E, Fields.variant_masked]
  exact congrArg (fun x => Except.ok (Instr.vand d a b x)) (Fields.mask_masked ..)
theorem vor d a b m : Statement (.vor d a b m) := by
  intro _ _
  change decode2E ⟨false, false, 0x2E, d, a, b, (m ++ (4 : BitVec 3))⟩ = _
  rw [decode2E, Fields.variant_masked]
  exact congrArg (fun x => Except.ok (Instr.vor d a b x)) (Fields.mask_masked ..)
theorem vxor d a b m : Statement (.vxor d a b m) := by
  intro _ _
  change decode2E ⟨false, false, 0x2E, d, a, b, (m ++ (5 : BitVec 3))⟩ = _
  rw [decode2E, Fields.variant_masked]
  exact congrArg (fun x => Except.ok (Instr.vxor d a b x)) (Fields.mask_masked ..)
theorem vshl d a b m : Statement (.vshl d a b m) := by
  intro _ _
  change decode2E ⟨false, false, 0x2E, d, a, b, (m ++ (6 : BitVec 3))⟩ = _
  rw [decode2E, Fields.variant_masked]
  exact congrArg (fun x => Except.ok (Instr.vshl d a b x)) (Fields.mask_masked ..)
theorem vshr d a b m : Statement (.vshr d a b m) := by
  intro _ _
  change decode2E ⟨false, false, 0x2E, d, a, b, (m ++ (7 : BitVec 3))⟩ = _
  rw [decode2E, Fields.variant_masked]
  exact congrArg (fun x => Except.ok (Instr.vshr d a b x)) (Fields.mask_masked ..)
theorem vsra d a b m : Statement (.vsra d a b m) := by
  intro _ _
  change decode2F ⟨false, false, 0x2F, d, a, b, (m ++ (0 : BitVec 3))⟩ = _
  rw [decode2F, Fields.variant_masked]
  exact congrArg (fun x => Except.ok (Instr.vsra d a b x)) (Fields.mask_masked ..)
theorem vminI d a b m : Statement (.vminI d a b m) := by
  intro _ _
  change decode2F ⟨false, false, 0x2F, d, a, b, (m ++ (1 : BitVec 3))⟩ = _
  rw [decode2F, Fields.variant_masked]
  exact congrArg (fun x => Except.ok (Instr.vminI d a b x)) (Fields.mask_masked ..)
theorem vmaxI d a b m : Statement (.vmaxI d a b m) := by
  intro _ _
  change decode2F ⟨false, false, 0x2F, d, a, b, (m ++ (2 : BitVec 3))⟩ = _
  rw [decode2F, Fields.variant_masked]
  exact congrArg (fun x => Except.ok (Instr.vmaxI d a b x)) (Fields.mask_masked ..)
theorem vminu d a b m : Statement (.vminu d a b m) := by
  intro _ _
  change decode2F ⟨false, false, 0x2F, d, a, b, (m ++ (3 : BitVec 3))⟩ = _
  rw [decode2F, Fields.variant_masked]
  exact congrArg (fun x => Except.ok (Instr.vminu d a b x)) (Fields.mask_masked ..)
theorem vmaxu d a b m : Statement (.vmaxu d a b m) := by
  intro _ _
  change decode2F ⟨false, false, 0x2F, d, a, b, (m ++ (4 : BitVec 3))⟩ = _
  rw [decode2F, Fields.variant_masked]
  exact congrArg (fun x => Except.ok (Instr.vmaxu d a b x)) (Fields.mask_masked ..)
theorem vandn d a b m : Statement (.vandn d a b m) := by
  intro _ _
  change decode2F ⟨false, false, 0x2F, d, a, b, (m ++ (5 : BitVec 3))⟩ = _
  rw [decode2F, Fields.variant_masked]
  exact congrArg (fun x => Except.ok (Instr.vandn d a b x)) (Fields.mask_masked ..)
theorem vcmpEq d a b m : Statement (.vcmpEq d a b m) := by
  intro _ _
  change decode30 ⟨false, false, 0x30, d, a, b, (m ++ (0 : BitVec 3))⟩ = _
  rw [decode30, Fields.variant_masked]
  exact congrArg (fun x => Except.ok (Instr.vcmpEq d a b x)) (Fields.mask_masked ..)
theorem vcmpLt d a b m : Statement (.vcmpLt d a b m) := by
  intro _ _
  change decode30 ⟨false, false, 0x30, d, a, b, (m ++ (1 : BitVec 3))⟩ = _
  rw [decode30, Fields.variant_masked]
  exact congrArg (fun x => Except.ok (Instr.vcmpLt d a b x)) (Fields.mask_masked ..)
theorem vcmpLe d a b m : Statement (.vcmpLe d a b m) := by
  intro _ _
  change decode30 ⟨false, false, 0x30, d, a, b, (m ++ (2 : BitVec 3))⟩ = _
  rw [decode30, Fields.variant_masked]
  exact congrArg (fun x => Except.ok (Instr.vcmpLe d a b x)) (Fields.mask_masked ..)
theorem vcmpUn d a b m : Statement (.vcmpUn d a b m) := by
  intro _ _
  change decode30 ⟨false, false, 0x30, d, a, b, (m ++ (3 : BitVec 3))⟩ = _
  rw [decode30, Fields.variant_masked]
  exact congrArg (fun x => Except.ok (Instr.vcmpUn d a b x)) (Fields.mask_masked ..)
theorem vcmpEqI d a b m : Statement (.vcmpEqI d a b m) := by
  intro _ _
  change decode30 ⟨false, false, 0x30, d, a, b, (m ++ (4 : BitVec 3))⟩ = _
  rw [decode30, Fields.variant_masked]
  exact congrArg (fun x => Except.ok (Instr.vcmpEqI d a b x)) (Fields.mask_masked ..)
theorem vcmpLtI d a b m : Statement (.vcmpLtI d a b m) := by
  intro _ _
  change decode30 ⟨false, false, 0x30, d, a, b, (m ++ (5 : BitVec 3))⟩ = _
  rw [decode30, Fields.variant_masked]
  exact congrArg (fun x => Except.ok (Instr.vcmpLtI d a b x)) (Fields.mask_masked ..)
theorem vcmpLtu d a b m : Statement (.vcmpLtu d a b m) := by
  intro _ _
  change decode30 ⟨false, false, 0x30, d, a, b, (m ++ (6 : BitVec 3))⟩ = _
  rw [decode30, Fields.variant_masked]
  exact congrArg (fun x => Except.ok (Instr.vcmpLtu d a b x)) (Fields.mask_masked ..)
theorem vsel d a b c : Statement (.vsel d a b c) := fun _ _ => rfl
theorem vcvtUp d a f m : Statement (.vcvtUp d a f m) := by
  intro _ _
  change decode32 ⟨false, false, 0x32, d, a, f, (m ++ (0 : BitVec 3))⟩ = _
  rw [decode32, Fields.variant_masked]
  exact congrArg (fun x => Except.ok (Instr.vcvtUp d a f x)) (Fields.mask_masked ..)
theorem vcvtDn d a f m : Statement (.vcvtDn d a f m) := by
  intro _ _
  change decode32 ⟨false, false, 0x32, d, a, f, (m ++ (1 : BitVec 3))⟩ = _
  rw [decode32, Fields.variant_masked]
  exact congrArg (fun x => Except.ok (Instr.vcvtDn d a f x)) (Fields.mask_masked ..)
theorem vcvtDnSat d a f m : Statement (.vcvtDnSat d a f m) := by
  intro _ _
  change decode32 ⟨false, false, 0x32, d, a, f, (m ++ (2 : BitVec 3))⟩ = _
  rw [decode32, Fields.variant_masked]
  exact congrArg (fun x => Except.ok (Instr.vcvtDnSat d a f x)) (Fields.mask_masked ..)
theorem vcvtDnSr d a f m : Statement (.vcvtDnSr d a f m) := by
  intro _ _
  change decode32 ⟨false, false, 0x32, d, a, f, (m ++ (3 : BitVec 3))⟩ = _
  rw [decode32, Fields.variant_masked]
  exact congrArg (fun x => Except.ok (Instr.vcvtDnSr d a f x)) (Fields.mask_masked ..)
theorem vcvtDnSrSat d a f m : Statement (.vcvtDnSrSat d a f m) := by
  intro _ _
  change decode32 ⟨false, false, 0x32, d, a, f, (m ++ (4 : BitVec 3))⟩ = _
  rw [decode32, Fields.variant_masked]
  exact congrArg (fun x => Except.ok (Instr.vcvtDnSrSat d a f x)) (Fields.mask_masked ..)
theorem vcvtDnRtz d a f m : Statement (.vcvtDnRtz d a f m) := by
  intro _ _
  change decode32 ⟨false, false, 0x32, d, a, f, (m ++ (5 : BitVec 3))⟩ = _
  rw [decode32, Fields.variant_masked]
  exact congrArg (fun x => Except.ok (Instr.vcvtDnRtz d a f x)) (Fields.mask_masked ..)
theorem vperm d a b m : Statement (.vperm d a b m) := by
  intro _ _
  change decode33 ⟨false, false, 0x33, d, a, b, (m ++ (0 : BitVec 3))⟩ = _
  rw [decode33, Fields.variant_masked]
  exact congrArg (fun x => Except.ok (Instr.vperm d a b x)) (Fields.mask_masked ..)
theorem vbcast d a m : Statement (.vbcast d a m) := by
  intro _ _
  change decode33 ⟨false, false, 0x33, d, a, 0, (m ++ (1 : BitVec 3))⟩ = _
  rw [decode33, Fields.variant_masked]
  exact congrArg (fun x => Except.ok (Instr.vbcast d a x)) (Fields.mask_masked ..)
theorem vins d a n m : Statement (.vins d a n m) := by
  intro _ _
  change decode33 ⟨false, false, 0x33, d, a, n, (m ++ (2 : BitVec 3))⟩ = _
  rw [decode33, Fields.variant_masked]
  exact congrArg (fun x => Except.ok (Instr.vins d a n x)) (Fields.mask_masked ..)
theorem vext d a n : Statement (.vext d a n) := by
  intro _ _
  have h : BitVec.extractLsb' 3 3 (0x03 : BitVec 6) = 0 := by decide
  change decode33 ⟨false, false, 0x33, d, a, n, 0x03⟩ = _
  exact if_pos h
theorem vredAdd d a m : Statement (.vredAdd d a m) := by
  intro _ _
  change decode34 ⟨false, false, 0x34, d, a, 0, (m ++ (0 : BitVec 3))⟩ = _
  rw [decode34, Fields.variant_masked]
  exact congrArg (fun x => Except.ok (Instr.vredAdd d a x)) (Fields.mask_masked ..)
theorem vredMax d a m : Statement (.vredMax d a m) := by
  intro _ _
  change decode34 ⟨false, false, 0x34, d, a, 0, (m ++ (1 : BitVec 3))⟩ = _
  rw [decode34, Fields.variant_masked]
  exact congrArg (fun x => Except.ok (Instr.vredMax d a x)) (Fields.mask_masked ..)
theorem vredMin d a m : Statement (.vredMin d a m) := by
  intro _ _
  change decode34 ⟨false, false, 0x34, d, a, 0, (m ++ (2 : BitVec 3))⟩ = _
  rw [decode34, Fields.variant_masked]
  exact congrArg (fun x => Except.ok (Instr.vredMin d a x)) (Fields.mask_masked ..)
theorem mand d a b : Statement (.mand d a b) := by
  intro _ _
  have h : BitVec.extractLsb' 3 3 (0x04 : BitVec 6) = 0 := by decide
  change decode34 ⟨false, false, 0x34, d, a, b, 0x04⟩ = _
  exact if_pos h
theorem mor d a b : Statement (.mor d a b) := by
  intro _ _
  have h : BitVec.extractLsb' 3 3 (0x05 : BitVec 6) = 0 := by decide
  change decode34 ⟨false, false, 0x34, d, a, b, 0x05⟩ = _
  exact if_pos h
theorem mnot d a : Statement (.mnot d a) := by
  intro _ _
  have h : BitVec.extractLsb' 3 3 (0x06 : BitVec 6) = 0 := by decide
  change decode34 ⟨false, false, 0x34, d, a, 0, 0x06⟩ = _
  exact if_pos h
theorem mpopc d a : Statement (.mpopc d a) := by
  intro _ _
  have h : BitVec.extractLsb' 3 3 (0x07 : BitVec 6) = 0 := by decide
  change decode34 ⟨false, false, 0x34, d, a, 0, 0x07⟩ = _
  exact if_pos h
theorem vaddBf d a b m : Statement (.vaddBf d a b m) := by
  intro _ _
  change decode35 ⟨false, false, 0x35, d, a, b, (m ++ (0 : BitVec 3))⟩ = _
  rw [decode35, Fields.variant_masked]
  exact congrArg (fun x => Except.ok (Instr.vaddBf d a b x)) (Fields.mask_masked ..)
theorem vmulBf d a b m : Statement (.vmulBf d a b m) := by
  intro _ _
  change decode35 ⟨false, false, 0x35, d, a, b, (m ++ (1 : BitVec 3))⟩ = _
  rw [decode35, Fields.variant_masked]
  exact congrArg (fun x => Except.ok (Instr.vmulBf d a b x)) (Fields.mask_masked ..)
theorem vaddHf d a b m : Statement (.vaddHf d a b m) := by
  intro _ _
  change decode35 ⟨false, false, 0x35, d, a, b, (m ++ (2 : BitVec 3))⟩ = _
  rw [decode35, Fields.variant_masked]
  exact congrArg (fun x => Except.ok (Instr.vaddHf d a b x)) (Fields.mask_masked ..)
theorem vmulHf d a b m : Statement (.vmulHf d a b m) := by
  intro _ _
  change decode35 ⟨false, false, 0x35, d, a, b, (m ++ (3 : BitVec 3))⟩ = _
  rw [decode35, Fields.variant_masked]
  exact congrArg (fun x => Except.ok (Instr.vmulHf d a b x)) (Fields.mask_masked ..)
theorem vaddI16 d a b m : Statement (.vaddI16 d a b m) := by
  intro _ _
  change decode35 ⟨false, false, 0x35, d, a, b, (m ++ (4 : BitVec 3))⟩ = _
  rw [decode35, Fields.variant_masked]
  exact congrArg (fun x => Except.ok (Instr.vaddI16 d a b x)) (Fields.mask_masked ..)
theorem vsubI16 d a b m : Statement (.vsubI16 d a b m) := by
  intro _ _
  change decode35 ⟨false, false, 0x35, d, a, b, (m ++ (5 : BitVec 3))⟩ = _
  rw [decode35, Fields.variant_masked]
  exact congrArg (fun x => Except.ok (Instr.vsubI16 d a b x)) (Fields.mask_masked ..)
theorem vaddI8 d a b m : Statement (.vaddI8 d a b m) := by
  intro _ _
  change decode35 ⟨false, false, 0x35, d, a, b, (m ++ (6 : BitVec 3))⟩ = _
  rw [decode35, Fields.variant_masked]
  exact congrArg (fun x => Except.ok (Instr.vaddI8 d a b x)) (Fields.mask_masked ..)
theorem vsubI8 d a b m : Statement (.vsubI8 d a b m) := by
  intro _ _
  change decode35 ⟨false, false, 0x35, d, a, b, (m ++ (7 : BitVec 3))⟩ = _
  rw [decode35, Fields.variant_masked]
  exact congrArg (fun x => Except.ok (Instr.vsubI8 d a b x)) (Fields.mask_masked ..)
theorem j off : Statement (.j off) := fun _ _ => congrArg (fun x => Except.ok (Instr.j x)) (Fields.off24_cj ..)
theorem jl off : Statement (.jl off) := fun _ _ => congrArg (fun x => Except.ok (Instr.jl x)) (Fields.off24_cj ..)
theorem jlL off : Statement (.jlL off) := fun _ h => absurd rfl (h _)
theorem bEq a b off : Statement (.bEq a b off) := by
  intro _ _
  change decode03 ⟨false, false, 0x03, ((0 : BitVec 3) ++ a.extractLsb' 3 3), (a.extractLsb' 0 3 ++ b.extractLsb' 3 3), (b.extractLsb' 0 3 ++ off.extractLsb' 6 3), (off.extractLsb' 0 6)⟩ = _
  rw [decode03, Fields.cond_cb, Fields.cbA_cb, Fields.cbB_cb]
  exact congrArg (fun x => Except.ok (Instr.bEq a b x)) (Fields.off9_cm ..)
theorem bNe a b off : Statement (.bNe a b off) := by
  intro _ _
  change decode03 ⟨false, false, 0x03, ((1 : BitVec 3) ++ a.extractLsb' 3 3), (a.extractLsb' 0 3 ++ b.extractLsb' 3 3), (b.extractLsb' 0 3 ++ off.extractLsb' 6 3), (off.extractLsb' 0 6)⟩ = _
  rw [decode03, Fields.cond_cb, Fields.cbA_cb, Fields.cbB_cb]
  exact congrArg (fun x => Except.ok (Instr.bNe a b x)) (Fields.off9_cm ..)
theorem bLt a b off : Statement (.bLt a b off) := by
  intro _ _
  change decode03 ⟨false, false, 0x03, ((2 : BitVec 3) ++ a.extractLsb' 3 3), (a.extractLsb' 0 3 ++ b.extractLsb' 3 3), (b.extractLsb' 0 3 ++ off.extractLsb' 6 3), (off.extractLsb' 0 6)⟩ = _
  rw [decode03, Fields.cond_cb, Fields.cbA_cb, Fields.cbB_cb]
  exact congrArg (fun x => Except.ok (Instr.bLt a b x)) (Fields.off9_cm ..)
theorem bGe a b off : Statement (.bGe a b off) := by
  intro _ _
  change decode03 ⟨false, false, 0x03, ((3 : BitVec 3) ++ a.extractLsb' 3 3), (a.extractLsb' 0 3 ++ b.extractLsb' 3 3), (b.extractLsb' 0 3 ++ off.extractLsb' 6 3), (off.extractLsb' 0 6)⟩ = _
  rw [decode03, Fields.cond_cb, Fields.cbA_cb, Fields.cbB_cb]
  exact congrArg (fun x => Except.ok (Instr.bGe a b x)) (Fields.off9_cm ..)
theorem bLtu a b off : Statement (.bLtu a b off) := by
  intro _ _
  change decode03 ⟨false, false, 0x03, ((4 : BitVec 3) ++ a.extractLsb' 3 3), (a.extractLsb' 0 3 ++ b.extractLsb' 3 3), (b.extractLsb' 0 3 ++ off.extractLsb' 6 3), (off.extractLsb' 0 6)⟩ = _
  rw [decode03, Fields.cond_cb, Fields.cbA_cb, Fields.cbB_cb]
  exact congrArg (fun x => Except.ok (Instr.bLtu a b x)) (Fields.off9_cm ..)
theorem bGeu a b off : Statement (.bGeu a b off) := by
  intro _ _
  change decode03 ⟨false, false, 0x03, ((5 : BitVec 3) ++ a.extractLsb' 3 3), (a.extractLsb' 0 3 ++ b.extractLsb' 3 3), (b.extractLsb' 0 3 ++ off.extractLsb' 6 3), (off.extractLsb' 0 6)⟩ = _
  rw [decode03, Fields.cond_cb, Fields.cbA_cb, Fields.cbB_cb]
  exact congrArg (fun x => Except.ok (Instr.bGeu a b x)) (Fields.off9_cm ..)
theorem bBset a bit off : Statement (.bBset a bit off) := by
  intro _ _
  change decode03 ⟨false, false, 0x03, ((6 : BitVec 3) ++ a.extractLsb' 3 3), (a.extractLsb' 0 3 ++ bit.extractLsb' 3 3), (bit.extractLsb' 0 3 ++ off.extractLsb' 6 3), (off.extractLsb' 0 6)⟩ = _
  rw [decode03, Fields.cond_cb, Fields.cbA_cb, Fields.cbB_cb]
  exact congrArg (fun x => Except.ok (Instr.bBset a bit x)) (Fields.off9_cm ..)
theorem bBclr a bit off : Statement (.bBclr a bit off) := by
  intro _ _
  change decode03 ⟨false, false, 0x03, ((7 : BitVec 3) ++ a.extractLsb' 3 3), (a.extractLsb' 0 3 ++ bit.extractLsb' 3 3), (bit.extractLsb' 0 3 ++ off.extractLsb' 6 3), (off.extractLsb' 0 6)⟩ = _
  rw [decode03, Fields.cond_cb, Fields.cbA_cb, Fields.cbB_cb]
  exact congrArg (fun x => Except.ok (Instr.bBclr a bit x)) (Fields.off9_cm ..)
theorem jr a : Statement (.jr a) := fun _ _ => rfl
theorem jrA a : Statement (.jrA a) := fun _ _ => rfl
theorem jlr a : Statement (.jlr a) := fun _ _ => rfl
theorem jlrA a : Statement (.jlrA a) := fun _ _ => rfl
theorem ldB t base off : Statement (.ldB t base off) := by
  intro _ _
  change decode05 ⟨false, false, 0x05, t, base, ((0 : BitVec 3) ++ off.extractLsb' 6 3), (off.extractLsb' 0 6)⟩ = _
  rw [decode05, Fields.op_cm]
  exact congrArg (fun x => Except.ok (Instr.ldB t base x)) (Fields.off9_cm ..)
theorem ldH t base off : Statement (.ldH t base off) := by
  intro _ _
  change decode05 ⟨false, false, 0x05, t, base, ((1 : BitVec 3) ++ off.extractLsb' 6 3), (off.extractLsb' 0 6)⟩ = _
  rw [decode05, Fields.op_cm]
  exact congrArg (fun x => Except.ok (Instr.ldH t base x)) (Fields.off9_cm ..)
theorem ldW t base off : Statement (.ldW t base off) := by
  intro _ _
  change decode05 ⟨false, false, 0x05, t, base, ((2 : BitVec 3) ++ off.extractLsb' 6 3), (off.extractLsb' 0 6)⟩ = _
  rw [decode05, Fields.op_cm]
  exact congrArg (fun x => Except.ok (Instr.ldW t base x)) (Fields.off9_cm ..)
theorem ldD t base off : Statement (.ldD t base off) := by
  intro _ _
  change decode05 ⟨false, false, 0x05, t, base, ((3 : BitVec 3) ++ off.extractLsb' 6 3), (off.extractLsb' 0 6)⟩ = _
  rw [decode05, Fields.op_cm]
  exact congrArg (fun x => Except.ok (Instr.ldD t base x)) (Fields.off9_cm ..)
theorem ldBu t base off : Statement (.ldBu t base off) := by
  intro _ _
  change decode05 ⟨false, false, 0x05, t, base, ((4 : BitVec 3) ++ off.extractLsb' 6 3), (off.extractLsb' 0 6)⟩ = _
  rw [decode05, Fields.op_cm]
  exact congrArg (fun x => Except.ok (Instr.ldBu t base x)) (Fields.off9_cm ..)
theorem ldHu t base off : Statement (.ldHu t base off) := by
  intro _ _
  change decode05 ⟨false, false, 0x05, t, base, ((5 : BitVec 3) ++ off.extractLsb' 6 3), (off.extractLsb' 0 6)⟩ = _
  rw [decode05, Fields.op_cm]
  exact congrArg (fun x => Except.ok (Instr.ldHu t base x)) (Fields.off9_cm ..)
theorem ldWu t base off : Statement (.ldWu t base off) := by
  intro _ _
  change decode05 ⟨false, false, 0x05, t, base, ((6 : BitVec 3) ++ off.extractLsb' 6 3), (off.extractLsb' 0 6)⟩ = _
  rw [decode05, Fields.op_cm]
  exact congrArg (fun x => Except.ok (Instr.ldWu t base x)) (Fields.off9_cm ..)
theorem stB t base off : Statement (.stB t base off) := by
  intro _ _
  change decode06 ⟨false, false, 0x06, t, base, ((0 : BitVec 3) ++ off.extractLsb' 6 3), (off.extractLsb' 0 6)⟩ = _
  rw [decode06, Fields.op_cm]
  exact congrArg (fun x => Except.ok (Instr.stB t base x)) (Fields.off9_cm ..)
theorem stH t base off : Statement (.stH t base off) := by
  intro _ _
  change decode06 ⟨false, false, 0x06, t, base, ((1 : BitVec 3) ++ off.extractLsb' 6 3), (off.extractLsb' 0 6)⟩ = _
  rw [decode06, Fields.op_cm]
  exact congrArg (fun x => Except.ok (Instr.stH t base x)) (Fields.off9_cm ..)
theorem stW t base off : Statement (.stW t base off) := by
  intro _ _
  change decode06 ⟨false, false, 0x06, t, base, ((2 : BitVec 3) ++ off.extractLsb' 6 3), (off.extractLsb' 0 6)⟩ = _
  rw [decode06, Fields.op_cm]
  exact congrArg (fun x => Except.ok (Instr.stW t base x)) (Fields.off9_cm ..)
theorem stD t base off : Statement (.stD t base off) := by
  intro _ _
  change decode06 ⟨false, false, 0x06, t, base, ((3 : BitVec 3) ++ off.extractLsb' 6 3), (off.extractLsb' 0 6)⟩ = _
  rw [decode06, Fields.op_cm]
  exact congrArg (fun x => Except.ok (Instr.stD t base x)) (Fields.off9_cm ..)
theorem ldFe t base off : Statement (.ldFe t base off) := by
  intro _ _
  change decode07 ⟨false, false, 0x07, t, base, ((0 : BitVec 3) ++ off.extractLsb' 6 3), (off.extractLsb' 0 6)⟩ = _
  rw [decode07, Fields.op_cm]
  exact congrArg (fun x => Except.ok (Instr.ldFe t base x)) (Fields.off9_cm ..)
theorem ldFf t base off : Statement (.ldFf t base off) := by
  intro _ _
  change decode07 ⟨false, false, 0x07, t, base, ((1 : BitVec 3) ++ off.extractLsb' 6 3), (off.extractLsb' 0 6)⟩ = _
  rw [decode07, Fields.op_cm]
  exact congrArg (fun x => Except.ok (Instr.ldFf t base x)) (Fields.off9_cm ..)
theorem stEf t base off : Statement (.stEf t base off) := by
  intro _ _
  change decode07 ⟨false, false, 0x07, t, base, ((2 : BitVec 3) ++ off.extractLsb' 6 3), (off.extractLsb' 0 6)⟩ = _
  rw [decode07, Fields.op_cm]
  exact congrArg (fun x => Except.ok (Instr.stEf t base x)) (Fields.off9_cm ..)
theorem stF t base off : Statement (.stF t base off) := by
  intro _ _
  change decode07 ⟨false, false, 0x07, t, base, ((3 : BitVec 3) ++ off.extractLsb' 6 3), (off.extractLsb' 0 6)⟩ = _
  rw [decode07, Fields.op_cm]
  exact congrArg (fun x => Except.ok (Instr.stF t base x)) (Fields.off9_cm ..)
theorem ldw t base off : Statement (.ldw t base off) := by
  intro _ _
  change decode07 ⟨false, false, 0x07, t, base, ((4 : BitVec 3) ++ off.extractLsb' 6 3), (off.extractLsb' 0 6)⟩ = _
  rw [decode07, Fields.op_cm]
  exact congrArg (fun x => Except.ok (Instr.ldw t base x)) (Fields.off9_cm ..)
theorem pf lvl base off : Statement (.pf lvl base off) := by
  intro _ _
  change decode07 ⟨false, false, 0x07, lvl, base, ((5 : BitVec 3) ++ off.extractLsb' 6 3), (off.extractLsb' 0 6)⟩ = _
  rw [decode07, Fields.op_cm]
  exact congrArg (fun x => Except.ok (Instr.pf lvl base x)) (Fields.off9_cm ..)
theorem ipf lvl base off : Statement (.ipf lvl base off) := by
  intro _ _
  change decode07 ⟨false, false, 0x07, lvl, base, ((6 : BitVec 3) ++ off.extractLsb' 6 3), (off.extractLsb' 0 6)⟩ = _
  rw [decode07, Fields.op_cm]
  exact congrArg (fun x => Except.ok (Instr.ipf lvl base x)) (Fields.off9_cm ..)
theorem vld t base off : Statement (.vld t base off) := by
  intro _ _
  change decode08 ⟨false, false, 0x08, t, base, ((0 : BitVec 3) ++ off.extractLsb' 6 3), (off.extractLsb' 0 6)⟩ = _
  rw [decode08, Fields.op_cm]
  exact congrArg (fun x => Except.ok (Instr.vld t base x)) (Fields.off9_cm ..)
theorem vst t base off : Statement (.vst t base off) := by
  intro _ _
  change decode08 ⟨false, false, 0x08, t, base, ((1 : BitVec 3) ++ off.extractLsb' 6 3), (off.extractLsb' 0 6)⟩ = _
  rw [decode08, Fields.op_cm]
  exact congrArg (fun x => Except.ok (Instr.vst t base x)) (Fields.off9_cm ..)
theorem vldw t base off : Statement (.vldw t base off) := by
  intro _ _
  change decode08 ⟨false, false, 0x08, t, base, ((2 : BitVec 3) ++ off.extractLsb' 6 3), (off.extractLsb' 0 6)⟩ = _
  rw [decode08, Fields.op_cm]
  exact congrArg (fun x => Except.ok (Instr.vldw t base x)) (Fields.off9_cm ..)
theorem vstw t base off : Statement (.vstw t base off) := by
  intro _ _
  change decode08 ⟨false, false, 0x08, t, base, ((3 : BitVec 3) ++ off.extractLsb' 6 3), (off.extractLsb' 0 6)⟩ = _
  rw [decode08, Fields.op_cm]
  exact congrArg (fun x => Except.ok (Instr.vstw t base x)) (Fields.off9_cm ..)
theorem vgat a b c m : Statement (.vgat a b c m) := by
  intro _ _
  change decode09 ⟨false, false, 0x09, a, b, c, (m ++ (0 : BitVec 3))⟩ = _
  rw [decode09, Fields.variant_masked]
  exact congrArg (fun x => Except.ok (Instr.vgat a b c x)) (Fields.mask_masked ..)
theorem vsct a b c m : Statement (.vsct a b c m) := by
  intro _ _
  change decode09 ⟨false, false, 0x09, a, b, c, (m ++ (1 : BitVec 3))⟩ = _
  rw [decode09, Fields.variant_masked]
  exact congrArg (fun x => Except.ok (Instr.vsct a b c x)) (Fields.mask_masked ..)
theorem fenceCore : Statement (.fenceCore) := fun _ _ => rfl
theorem fenceCl : Statement (.fenceCl) := fun _ _ => rfl
theorem fenceDie : Statement (.fenceDie) := fun _ _ => rfl
theorem fenceSys : Statement (.fenceSys) := fun _ _ => rfl
theorem tlbInv a b c : Statement (.tlbInv a b c) := fun _ _ => rfl
theorem tlbSync : Statement (.tlbSync) := fun _ _ => rfl
theorem dcWb a b : Statement (.dcWb a b) := fun _ _ => rfl
theorem dcInv a b : Statement (.dcInv a b) := fun _ _ => rfl
theorem dcWbinv a b : Statement (.dcWbinv a b) := fun _ _ => rfl
theorem icInv a b : Statement (.icInv a b) := fun _ _ => rfl
theorem tNew a b : Statement (.tNew a b) := fun _ _ => rfl
theorem tFree a : Statement (.tFree a) := fun _ _ => rfl
theorem tLd a b : Statement (.tLd a b) := fun _ _ => rfl
theorem tSt a b : Statement (.tSt a b) := fun _ _ => rfl
theorem tGat a b c : Statement (.tGat a b c) := fun _ _ => rfl
theorem tPhr a b c : Statement (.tPhr a b c) := fun _ _ => rfl
theorem tQ a b which : Statement (.tQ a b which) := fun _ _ => rfl
theorem tWiden a b c : Statement (.tWiden a b c) := fun _ _ => rfl
theorem mxLease : Statement (.mxLease) := fun _ _ => rfl
theorem mxFree a : Statement (.mxFree a) := fun _ _ => rfl
theorem mxCfg a : Statement (.mxCfg a) := fun _ _ => rfl
theorem mxMma a b tile : Statement (.mxMma a b tile) := fun _ _ => rfl
theorem mxSp a b tile : Statement (.mxSp a b tile) := fun _ _ => rfl
theorem mxZero tile : Statement (.mxZero tile) := fun _ _ => rfl
theorem mxLd a tile : Statement (.mxLd a tile) := fun _ _ => rfl
theorem mxSt a tile : Statement (.mxSt a tile) := fun _ _ => rfl
theorem bkAdd a b c : Statement (.bkAdd a b c) := fun _ _ => rfl
theorem bkMul a b c : Statement (.bkMul a b c) := fun _ _ => rfl
theorem bkFma a b c : Statement (.bkFma a b c) := fun _ _ => rfl
theorem bkMax a b c : Statement (.bkMax a b c) := fun _ _ => rfl
theorem bkMin a b c : Statement (.bkMin a b c) := fun _ _ => rfl
theorem bkFill a b c : Statement (.bkFill a b c) := fun _ _ => rfl
theorem bkCvt a b c : Statement (.bkCvt a b c) := fun _ _ => rfl
theorem bkSum a b c : Statement (.bkSum a b c) := fun _ _ => rfl
theorem bkOsm a b c : Statement (.bkOsm a b c) := fun _ _ => rfl
theorem upOpen a b : Statement (.upOpen a b) := fun _ _ => rfl
theorem upEmit a b c : Statement (.upEmit a b c) := fun _ _ => rfl
theorem upEmitv a b c : Statement (.upEmitv a b c) := fun _ _ => rfl
theorem upFlush a b : Statement (.upFlush a b) := fun _ _ => rfl
theorem upClose a : Statement (.upClose a) := fun _ _ => rfl
theorem upSt a b which : Statement (.upSt a b which) := fun _ _ => rfl
theorem cp a ctx tag : Statement (.cp a ctx tag) := fun _ _ => rfl
theorem cp2d a ctx tag : Statement (.cp2d a ctx tag) := fun _ _ => rfl
theorem cpT a ctx tag : Statement (.cpT a ctx tag) := fun _ _ => rfl
theorem tagWaitAll a : Statement (.tagWaitAll a) := fun _ _ => rfl
theorem tagWaitAny a b : Statement (.tagWaitAny a b) := fun _ _ => rfl
theorem tagFfr a b : Statement (.tagFfr a b) := fun _ _ => rfl
theorem tlRd a b kind : Statement (.tlRd a b kind) := fun _ _ => rfl
theorem tlWait a b kind : Statement (.tlWait a b kind) := fun _ _ => rfl
theorem amoAdd w a b c : Statement (.amoAdd w a b c) := by
  intro _ _
  change decode12 ⟨false, false, 0x12, a, b, c, ((0 : BitVec 1) ++ BitVec.ofBool w ++ (0 : BitVec 4))⟩ = _
  rw [decode12, fn_amo.1, extract_append_low]
  exact congrArg (fun x => Except.ok (Instr.amoAdd x a b c)) fn_amo.2
theorem amoAnd w a b c : Statement (.amoAnd w a b c) := by
  intro _ _
  change decode12 ⟨false, false, 0x12, a, b, c, ((0 : BitVec 1) ++ BitVec.ofBool w ++ (1 : BitVec 4))⟩ = _
  rw [decode12, fn_amo.1, extract_append_low]
  exact congrArg (fun x => Except.ok (Instr.amoAnd x a b c)) fn_amo.2
theorem amoOr w a b c : Statement (.amoOr w a b c) := by
  intro _ _
  change decode12 ⟨false, false, 0x12, a, b, c, ((0 : BitVec 1) ++ BitVec.ofBool w ++ (2 : BitVec 4))⟩ = _
  rw [decode12, fn_amo.1, extract_append_low]
  exact congrArg (fun x => Except.ok (Instr.amoOr x a b c)) fn_amo.2
theorem amoXor w a b c : Statement (.amoXor w a b c) := by
  intro _ _
  change decode12 ⟨false, false, 0x12, a, b, c, ((0 : BitVec 1) ++ BitVec.ofBool w ++ (3 : BitVec 4))⟩ = _
  rw [decode12, fn_amo.1, extract_append_low]
  exact congrArg (fun x => Except.ok (Instr.amoXor x a b c)) fn_amo.2
theorem amoMin w a b c : Statement (.amoMin w a b c) := by
  intro _ _
  change decode12 ⟨false, false, 0x12, a, b, c, ((0 : BitVec 1) ++ BitVec.ofBool w ++ (4 : BitVec 4))⟩ = _
  rw [decode12, fn_amo.1, extract_append_low]
  exact congrArg (fun x => Except.ok (Instr.amoMin x a b c)) fn_amo.2
theorem amoMax w a b c : Statement (.amoMax w a b c) := by
  intro _ _
  change decode12 ⟨false, false, 0x12, a, b, c, ((0 : BitVec 1) ++ BitVec.ofBool w ++ (5 : BitVec 4))⟩ = _
  rw [decode12, fn_amo.1, extract_append_low]
  exact congrArg (fun x => Except.ok (Instr.amoMax x a b c)) fn_amo.2
theorem amoMinu w a b c : Statement (.amoMinu w a b c) := by
  intro _ _
  change decode12 ⟨false, false, 0x12, a, b, c, ((0 : BitVec 1) ++ BitVec.ofBool w ++ (6 : BitVec 4))⟩ = _
  rw [decode12, fn_amo.1, extract_append_low]
  exact congrArg (fun x => Except.ok (Instr.amoMinu x a b c)) fn_amo.2
theorem amoMaxu w a b c : Statement (.amoMaxu w a b c) := by
  intro _ _
  change decode12 ⟨false, false, 0x12, a, b, c, ((0 : BitVec 1) ++ BitVec.ofBool w ++ (7 : BitVec 4))⟩ = _
  rw [decode12, fn_amo.1, extract_append_low]
  exact congrArg (fun x => Except.ok (Instr.amoMaxu x a b c)) fn_amo.2
theorem amoSwap w a b c : Statement (.amoSwap w a b c) := by
  intro _ _
  change decode12 ⟨false, false, 0x12, a, b, c, ((0 : BitVec 1) ++ BitVec.ofBool w ++ (8 : BitVec 4))⟩ = _
  rw [decode12, fn_amo.1, extract_append_low]
  exact congrArg (fun x => Except.ok (Instr.amoSwap x a b c)) fn_amo.2
theorem amoCas w a b c : Statement (.amoCas w a b c) := by
  intro _ _
  change decode12 ⟨false, false, 0x12, a, b, c, ((0 : BitVec 1) ++ BitVec.ofBool w ++ (9 : BitVec 4))⟩ = _
  rw [decode12, fn_amo.1, extract_append_low]
  exact congrArg (fun x => Except.ok (Instr.amoCas x a b c)) fn_amo.2
theorem barInit a b : Statement (.barInit a b) := fun _ _ => rfl
theorem barArr a : Statement (.barArr a) := fun _ _ => rfl
theorem barExp a b : Statement (.barExp a b) := fun _ _ => rfl
theorem barWait a b : Statement (.barWait a b) := fun _ _ => rfl
theorem monArm a : Statement (.monArm a) := fun _ _ => rfl
theorem monWait a b : Statement (.monWait a b) := fun _ _ => rfl
theorem monClr a : Statement (.monClr a) := fun _ _ => rfl
theorem msgSend a b c : Statement (.msgSend a b c) := fun _ _ => rfl
theorem msgWait : Statement (.msgWait) := fun _ _ => rfl
theorem msgPop a b : Statement (.msgPop a b) := fun _ _ => rfl
theorem take a b : Statement (.take a b) := fun _ _ => rfl
theorem done : Statement (.done) := fun _ _ => rfl
theorem emit edge b c : Statement (.emit edge b c) := fun _ _ => rfl
theorem susp a b : Statement (.susp a b) := fun _ _ => rfl
theorem futInit a : Statement (.futInit a) := fun _ _ => rfl
theorem futReg a b c : Statement (.futReg a b c) := fun _ _ => rfl
theorem futRes a b : Statement (.futRes a b) := fun _ _ => rfl
theorem futResP a b : Statement (.futResP a b) := fun _ _ => rfl
theorem futRd a b : Statement (.futRd a b) := fun _ _ => rfl
theorem futRdS a b : Statement (.futRdS a b) := fun _ _ => rfl
theorem gNotify a b n : Statement (.gNotify a b n) := fun _ _ => rfl
theorem gLaunch a b c : Statement (.gLaunch a b c) := fun _ _ => rfl
theorem phLease a b c : Statement (.phLease a b c) := fun _ _ => rfl
theorem phRun a b c : Statement (.phRun a b c) := fun _ _ => rfl
theorem phFree a : Statement (.phFree a) := fun _ _ => rfl
theorem tkArm a b e : Statement (.tkArm a b e) := fun _ _ => rfl
theorem tkBud a b k : Statement (.tkBud a b k) := fun _ _ => rfl
theorem tkCmt a b c : Statement (.tkCmt a b c) := fun _ _ => rfl
theorem tkDraft a b : Statement (.tkDraft a b) := fun _ _ => rfl
theorem tkConf a b c : Statement (.tkConf a b c) := fun _ _ => rfl
theorem tkNext a b : Statement (.tkNext a b) := fun _ _ => rfl
theorem tkSt a b which : Statement (.tkSt a b which) := fun _ _ => rfl
theorem trap n : Statement (.trap n) := fun _ _ => congrArg (fun x => Except.ok (Instr.trap x)) (Fields.number_bc ..)
theorem eret : Statement (.eret) := fun _ _ => rfl
theorem crRd a n : Statement (.crRd a n) := fun _ _ => congrArg (fun x => Except.ok (Instr.crRd a x)) (Fields.number_bc ..)
theorem crWr a n : Statement (.crWr a n) := fun _ _ => congrArg (fun x => Except.ok (Instr.crWr a x)) (Fields.number_bc ..)
theorem crSet a n : Statement (.crSet a n) := fun _ _ => congrArg (fun x => Except.ok (Instr.crSet a x)) (Fields.number_bc ..)
theorem crClr a n : Statement (.crClr a n) := fun _ _ => congrArg (fun x => Except.ok (Instr.crClr a x)) (Fields.number_bc ..)
theorem repart a b : Statement (.repart a b) := fun _ _ => rfl
theorem repartRcl a b : Statement (.repartRcl a b) := fun _ _ => rfl
theorem repartStop a b : Statement (.repartStop a b) := fun _ _ => rfl
theorem repartRun a b : Statement (.repartRun a b) := fun _ _ => rfl
theorem halt : Statement (.halt) := fun _ _ => rfl
theorem brk : Statement (.brk) := fun _ _ => rfl
theorem ctrRd a n : Statement (.ctrRd a n) := fun _ _ => rfl
theorem ctrCfg a n : Statement (.ctrCfg a n) := fun _ _ => rfl
theorem ctrClr a : Statement (.ctrClr a) := fun _ _ => rfl
theorem causeRead d : Statement (.causeRead d) := fun h _ => nomatch h
theorem loadReturn k : Statement (.loadReturn k) := fun h _ => nomatch h
theorem fetchReturn k : Statement (.fetchReturn k) := fun h _ => nomatch h
theorem homeAccess k : Statement (.homeAccess k) := fun h _ => nomatch h
theorem fullEmptyArrival k : Statement (.fullEmptyArrival k) := fun h _ => nomatch h
theorem writeBack k : Statement (.writeBack k) := fun h _ => nomatch h
theorem eviction cluster sector : Statement (.eviction cluster sector) := fun h _ => nomatch h
theorem monitorTimeout core slot : Statement (.monitorTimeout core slot) := fun h _ => nomatch h
theorem messageArrival k : Statement (.messageArrival k) := fun h _ => nomatch h
theorem handleCommandArrival k : Statement (.handleCommandArrival k) := fun h _ => nomatch h
theorem handleCommandCompletion k : Statement (.handleCommandCompletion k) := fun h _ => nomatch h
theorem wideningConversion k : Statement (.wideningConversion k) := fun h _ => nomatch h
theorem leaseGrant cluster : Statement (.leaseGrant cluster) := fun h _ => nomatch h
theorem leaseWatchdogExpiry cluster : Statement (.leaseWatchdogExpiry cluster) := fun h _ => nomatch h
theorem arrayCommandCompletion k : Statement (.arrayCommandCompletion k) := fun h _ => nomatch h
theorem bankCommandPerformed k : Statement (.bankCommandPerformed k) := fun h _ => nomatch h
theorem pairArrival k : Statement (.pairArrival k) := fun h _ => nomatch h
theorem applicationEnd sid chan : Statement (.applicationEnd sid chan) := fun h _ => nomatch h
theorem flushArrival k : Statement (.flushArrival k) := fun h _ => nomatch h
theorem closeArrival k : Statement (.closeArrival k) := fun h _ => nomatch h
theorem copyCompletion k : Statement (.copyCompletion k) := fun h _ => nomatch h
theorem invalidationArrival k : Statement (.invalidationArrival k) := fun h _ => nomatch h
theorem invalidationAcknowledgement k : Statement (.invalidationAcknowledgement k) := fun h _ => nomatch h
theorem migrate k : Statement (.migrate k) := fun h _ => nomatch h
theorem release k : Statement (.release k) := fun h _ => nomatch h
theorem migrationCompletion k : Statement (.migrationCompletion k) := fun h _ => nomatch h
theorem launchCompletion k : Statement (.launchCompletion k) := fun h _ => nomatch h
theorem waveDrain die graph : Statement (.waveDrain die graph) := fun h _ => nomatch h
theorem itemArrival k : Statement (.itemArrival k) := fun h _ => nomatch h
theorem stealRequest k : Statement (.stealRequest k) := fun h _ => nomatch h
theorem stealBackoffExpiry core : Statement (.stealBackoffExpiry core) := fun h _ => nomatch h
theorem probeTimeout core : Statement (.probeTimeout core) := fun h _ => nomatch h
theorem probeToken k : Statement (.probeToken k) := fun h _ => nomatch h
theorem emergencyEntryRequest k : Statement (.emergencyEntryRequest k) := fun h _ => nomatch h
theorem sealArrival k : Statement (.sealArrival k) := fun h _ => nomatch h
theorem resumeNotice k : Statement (.resumeNotice k) := fun h _ => nomatch h
theorem phraseLeaseGrant chan : Statement (.phraseLeaseGrant chan) := fun h _ => nomatch h
theorem phraseRunCompletion k : Statement (.phraseRunCompletion k) := fun h _ => nomatch h
theorem lexrelWrite a : Statement (.lexrelWrite a) := fun h _ => nomatch h
theorem save k : Statement (.save k) := fun h _ => nomatch h
theorem restore k : Statement (.restore k) := fun h _ => nomatch h
theorem move k : Statement (.move k) := fun h _ => nomatch h
theorem unfwd k : Statement (.unfwd k) := fun h _ => nomatch h
theorem preemptionCompletion k : Statement (.preemptionCompletion k) := fun h _ => nomatch h
theorem debugHalt k : Statement (.debugHalt k) := fun h _ => nomatch h
theorem debugResume k : Statement (.debugResume k) := fun h _ => nomatch h
theorem powerOnReset : Statement (.powerOnReset) := fun h _ => nomatch h
theorem boot k : Statement (.boot k) := fun h _ => nomatch h
theorem bootPortTimeout : Statement (.bootPortTimeout) := fun h _ => nomatch h
theorem discoveryPacket k : Statement (.discoveryPacket k) := fun h _ => nomatch h
theorem imageDelivery k : Statement (.imageDelivery k) := fun h _ => nomatch h
theorem imageAcknowledgement k : Statement (.imageAcknowledgement k) := fun h _ => nomatch h
theorem launch k : Statement (.launch k) := fun h _ => nomatch h
theorem map k : Statement (.map k) := fun h _ => nomatch h
theorem copy k : Statement (.copy k) := fun h _ => nomatch h
theorem query k : Statement (.query k) := fun h _ => nomatch h
theorem quote k : Statement (.quote k) := fun h _ => nomatch h
theorem power k : Statement (.power k) := fun h _ => nomatch h
theorem undefinedLitarMessage k : Statement (.undefinedLitarMessage k) := fun h _ => nomatch h
theorem nonLitarFrame k : Statement (.nonLitarFrame k) := fun h _ => nomatch h
theorem priorityFlowControl k : Statement (.priorityFlowControl k) := fun h _ => nomatch h
theorem scedyFlit k : Statement (.scedyFlit k) := fun h _ => nomatch h
theorem linkLoss k : Statement (.linkLoss k) := fun h _ => nomatch h
theorem channelPowerEntry chan : Statement (.channelPowerEntry chan) := fun h _ => nomatch h
theorem channelWake chan : Statement (.channelWake chan) := fun h _ => nomatch h
theorem illegalInstruction : Statement (.illegalInstruction) := fun h _ => nomatch h
theorem rotationBoundary core : Statement (.rotationBoundary core) := fun h _ => nomatch h
theorem stealReply k : Statement (.stealReply k) := fun h _ => nomatch h

end Sys2Proof.Laws.RoundTrip
end

