-- ==== Sys2Proof/Laws/Vector.lean ====
section
/-! SUPPORT. What the lanes of a vector result are: packing, merging under a mask, and running a lane function. -/

set_option Elab.async false

namespace Sys2Proof.Machine

open Sys2Proof

/-- Lanes as one number, lane 0 lowest. -/
def packLanes (l : List Lane) : Nat := l.foldr (fun x acc => acc * 2 ^ 32 + x.toNat) 0

theorem packLanes_shift (l : List Lane) (i : Nat) : packLanes l / 2 ^ (32 * i) % 2 ^ 32 = (l.getD i 0).toNat := by
  induction l generalizing i with
  | nil => simp [packLanes]
  | cons x r ih =>
    have hc : packLanes (x :: r) = packLanes r * 2 ^ 32 + x.toNat := rfl
    have hx : x.toNat < 2 ^ 32 := x.isLt
    cases i with
    | zero => rw [hc]; simp only [Nat.mul_zero, Nat.pow_zero, Nat.div_one, List.getD_cons_zero]; omega
    | succ i =>
      rw [hc, List.getD_cons_succ, ← ih i, Nat.mul_succ, Nat.add_comm (32 * i) 32, Nat.pow_add, ← Nat.div_div_eq_div_mul]
      congr 2
      omega

/-- Reading a lane of packed lanes. -/
theorem lane_ofLanes (l : List Lane) {i : Nat} (hi : i < 16) : lane (ofLanes l) i = l.getD i 0 := by
  apply BitVec.eq_of_toNat_eq
  have h : ofLanes l = BitVec.ofNat 512 (packLanes (l.take 16)) := rfl
  rw [h, lane, BitVec.extractLsb'_toNat, BitVec.toNat_ofNat, Nat.shiftRight_eq_div_pow]
  have e : (2 : Nat) ^ 512 = 2 ^ (32 * i) * 2 ^ (512 - 32 * i) := by rw [← Nat.pow_add]; congr 1; omega
  rw [e, Nat.mod_mul_right_div_self, Nat.mod_mod_of_dvd _ (Nat.pow_dvd_pow 2 (by omega)), packLanes_shift]
  rw [List.getD_eq_getElem?_getD, List.getD_eq_getElem?_getD, List.getElem?_take_of_lt hi]

theorem lane_mergeLanes (mask : MWord) (x old : VWord) {i : Nat} (hi : i < 16) :
    lane (mergeLanes mask x old) i = if mask.getLsbD i then lane x i else lane old i := by
  rw [mergeLanes, lane_ofLanes _ hi]
  simp [List.getD_eq_getElem?_getD, hi]

/-- A vector register written under a mask. -/
theorem lanesAre_setV (mask : MWord) (x old : VWord) {f : Nat → Lane} (h : ∀ k, k < 16 → mask.getLsbD k = true → lane x k = f k) :
    lanesAre (if mask = BitVec.allOnes 16 then x else mergeLanes mask x old) old mask f := by
  intro k hk
  split
  · rename_i hm; subst hm
    have : (BitVec.allOnes 16).getLsbD k = true := by rw [BitVec.getLsbD_allOnes]; simp [hk]
    rw [if_pos this]; exact h k hk this
  · rw [lane_mergeLanes _ _ _ hk]
    split
    · rename_i hm; exact h k hk hm
    · rfl

/-! ## Running a lane function -/

/-- The lanes that `runLanes` gives over a list of lane numbers, and the flags, lane by lane. -/
theorem runLanes_eq (mask : MWord) (k : Nat) (f : Nat → List Nat → Lane × FFlags) (ds : List Nat) (l : List Nat) :
    (runLanes mask k f ds l).1.length = l.length ∧
    (∀ p (hp : p < l.length), (runLanes mask k f ds l).1.getD p 0 =
      if mask.getLsbD l[p] then (f l[p] ((ds.drop (k * (l.take p).countP mask.getLsbD)).take k)).1 else 0) := by
  induction l generalizing ds with
  | nil => simp [runLanes]
  | cons i r ih =>
    by_cases hm : mask.getLsbD i
    · simp only [runLanes, hm, if_true]
      refine ⟨by simp [(ih _).1], fun p hp => ?_⟩
      cases p with
      | zero => simp [hm]
      | succ p =>
        have := (ih (ds.drop k)).2 p (by simpa using hp)
        simp only [List.getD_cons_succ, this, List.getElem_cons_succ, List.take_succ_cons, List.countP_cons, hm, if_true, List.drop_drop]
        congr 5
        ring
    · simp only [runLanes, hm]
      refine ⟨by simp [(ih _).1], fun p hp => ?_⟩
      cases p with
      | zero => simp [hm]
      | succ p =>
        have := (ih ds).2 p (by simpa using hp)
        simp only [List.getElem_cons_succ, List.take_succ_cons, List.countP_cons, hm]
        exact this

theorem or_fold (mask : MWord) (g : Nat → FFlags) (l : List Nat) (a : FFlags) :
    l.foldl (fun acc k => if mask.getLsbD k then acc ||| g k else acc) a =
      a ||| l.foldl (fun acc k => if mask.getLsbD k then acc ||| g k else acc) 0 := by
  induction l generalizing a with
  | nil => simp
  | cons i r ih =>
    simp only [List.foldl_cons]
    by_cases hm : mask.getLsbD i
    · simp only [hm, if_true]
      rw [ih (a ||| g i), ih (0 ||| g i)]
      simp [BitVec.or_assoc]
    · simp only [hm]
      exact ih a

/-- The flags of `runLanes` when each lane's function meets only its own draws. -/
theorem runLanes_flags (mask : MWord) (k : Nat) (f : Nat → List Nat → Lane × FFlags) (g : Nat → FFlags) (ds l : List Nat)
    (h : ∀ p (hp : p < l.length), mask.getLsbD l[p] = true →
      (f l[p] ((ds.drop (k * (l.take p).countP mask.getLsbD)).take k)).2 = g l[p]) :
    (runLanes mask k f ds l).2 = l.foldl (fun acc j => if mask.getLsbD j then acc ||| g j else acc) 0 := by
  induction l generalizing ds with
  | nil => simp [runLanes]
  | cons i r ih =>
    by_cases hm : mask.getLsbD i
    · have h0 := h 0 (by simp) hm
      simp only [List.getElem_cons_zero, List.take_zero, List.countP_nil, Nat.mul_zero, List.drop_zero] at h0
      simp only [runLanes, hm, if_true, List.foldl_cons, h0]
      rw [or_fold, ih (ds.drop k)]
      · simp
      · intro p hp hmp
        have := h (p + 1) (by simpa using hp) (by simpa using hmp)
        simp only [List.getElem_cons_succ, List.take_succ_cons, List.countP_cons, hm, if_true] at this
        rw [List.drop_drop, ← this]
        congr 3
        ring_nf
    · simp only [runLanes, hm, List.foldl_cons]
      rw [if_neg (by simp), if_neg (by simp)]
      refine ih ds ?_
      intro p hp hmp
      have := h (p + 1) (by simpa using hp) (by simpa using hmp)
      simpa only [List.getElem_cons_succ, List.take_succ_cons, List.countP_cons, hm, Bool.false_eq_true, if_false, Nat.add_zero] using this

/-! ## Stochastic draws (R157) -/

theorem repeat_step (n : Nat) (x : BitVec 32) : n.repeat srsStep (srsStep x) = srsStep (n.repeat srsStep x) := by
  induction n with
  | zero => rfl
  | succ n ih => simp only [Nat.repeat, ih]

/-- The draws of n steps, one by one, and the LFSR after them. -/
theorem srsDraws_eq (x : BitVec 32) (n : Nat) :
    (srsDraws x n).1 = (List.range n).map (fun i => srsDraw ((i + 1).repeat srsStep x)) ∧ (srsDraws x n).2 = n.repeat srsStep x := by
  induction n generalizing x with
  | zero => simp [srsDraws, Nat.repeat]
  | succ n ih =>
    obtain ⟨h1, h2⟩ := ih (srsStep x)
    simp only [srsDraws, h1, h2]
    refine ⟨?_, ?_⟩
    · rw [List.range_succ_eq_map]
      simp only [List.map_cons, List.map_map]
      congr 1
      apply List.map_congr_left
      intro i _
      simp only [Function.comp, Nat.repeat, repeat_step]
    · simp only [Nat.repeat, repeat_step]

end Sys2Proof.Machine
end

