-- ==== Sys2Proof/Tests/Slice0.lean ====
section
/-! SUPPORT. Tests: ill-formed terms that the checks refuse, words that the specification writes out, worked examples of
the specification, and for each statement states that meet its hypotheses. -/

set_option Elab.async false

namespace Sys2Proof.Tests

open Sys2Proof Sys2Proof.Machine

/-! ## Ill-formed instructions (R28, R29, R97, R165, R177, R179, R213, R252) -/

/-- One term for each check, and the check refuses it. -/
theorem test_wf_refuses : ([.add 40 0 0, .add 0 63 0, .movk 32 0 5, .amoCas true 32 6 7, .vadd 40 1 2 0, .mand 8 0 0, .vcvtUp 0 0 0 0,
    .vcvtUp 0 0 4 0, .vcvtDn 0 0 0x28 0, .vcvtDnSat 0 0 0x29 1, .vcvtDnSr 0 0 0x2E 1, .vcvtDnSrSat 0 0 0x2F 0, .vcvtDnRtz 0 0 14 0,
    .vins 32 0 0 0, .vins 0 0 16 0, .vext 0 0 16, .pf 2 0 0, .ipf 2 0 0, .tQ 0 0 6, .mxMma 0 0 4, .mxSp 0 0 4, .mxZero 4, .mxLd 0 4,
    .mxSt 0 4, .upSt 0 0 6, .cp 0 4 0, .cp2d 0 4 0, .cpT 0 4 0, .tlRd 0 0 5, .tlWait 0 0 5, .tkArm 0 0 9, .tkBud 0 0 2, .tkSt 0 0 32,
    .crRd 0 7, .crWr 0 0x089, .crSet 0 0x091, .crClr 0 0x0FF, .ctrRd 0 12, .ctrCfg 0 7, .ctrCfg 0 12] : List Instr).all
    (fun i => !i.wf) = true := by decide +kernel

/-- At the ends of the ranges they stand. -/
theorem test_wf_accepts : ([.add 39 31 32, .amoCas true 31 39 0, .vadd 39 31 0 7, .mand 7 7 7, .vcvtUp 0 0 13 7, .vcvtDn 0 0 0x2E 0, .vins 31 0 15 0,
    .pf 1 0 0, .tQ 0 0 5, .mxMma 0 0 3, .upSt 0 0 5, .cp 0 3 63, .tlRd 0 0 4, .tkArm 0 0 8, .tkSt 0 0 31, .crRd 0 6, .crWr 0 0x087, .ctrRd 0 11,
    .ctrCfg 0 8] : List Instr).all Instr.wf = true := by decide +kernel

/-! ## Words of the specification -/

/-- Words that the specification writes out, in the order of their major opcodes. -/
theorem test_words_0 : ∀ q ∈ ([
    (0x03251E0C, false, .bNe 10 15 0x00C), (0x03C2FFFE, false, .bBset 5 63 0x1FE), (0x04040040, false, .jrA 1),
    (0x04200001, false, .jlr 8), (0x05144403, false, .ldW 5 4 3), (0x4550D200, true, .ldH 20 13 0),
    (0x0554D201, false, .ldH 21 13 1), (0x46006600, true, .stD 0 6 0), (0x46491601, true, .stD 18 17 1),
    (0x07044A02, false, .pf 1 4 2), (0x07187402, false, .stEf 6 7 2), (0x472C361A, true, .stF 11 3 26),
    (0x072C521A, false, .ldFf 11 5 26), (0x07507002, false, .ldFe 20 7 2), (0x08050000, false, .vld 1 16 0),
    (0x08084202, false, .vst 2 4 2), (0x08851600, false, .vstw 33 17 0), (0x09044089, false, .vsct 1 4 2 1),
    (0x090C4148, false, .vgat 3 4 5 1), (0x0A000002, false, .fenceDie), (0x0B000001, false, .tlbSync),
    (0x0B154200, false, .tlbInv 5 20 8), (0x0C14A0C6, false, .tQ 5 10 3), (0x0C28B305, false, .tPhr 10 11 12)] : List (BitVec 32 × Bool × Instr)), decodeWord q.1 = .ok ⟨false, q.2.1, q.2.2⟩ := by decide +kernel

/-- Words that the specification writes out, in the order of their major opcodes. -/
theorem test_words_1 : ∀ q ∈ ([
    (0x0C28B344, false, .tGat 10 11 13), (0x0C290000, false, .tNew 10 16), (0x0C50A0C6, false, .tQ 20 10 3),
    (0x4C60A146, true, .tQ 24 10 5), (0x0C700001, false, .tFree 28), (0x4C79C747, true, .tWiden 30 28 29),
    (0x0D000000, false, .mxLease), (0x4D000000, true, .mxLease), (0x0D000001, false, .mxFree 0), (0x0D000005, false, .mxZero 0),
    (0x0D0000C5, false, .mxZero 3), (0x0D180001, false, .mxFree 6), (0x0D515003, false, .mxMma 20 21 0),
    (0x0D515044, false, .mxSp 20 21 1), (0x0D600007, false, .mxSt 24 0), (0x0D680001, false, .mxFree 26),
    (0x0D680086, false, .mxLd 26 2), (0x0D740002, false, .mxCfg 29), (0x0E1461C5, false, .bkFill 5 6 7),
    (0x0E209007, false, .bkSum 8 9 0), (0x0E34E008, false, .bkOsm 13 14 0), (0x0E515580, false, .bkAdd 20 21 22),
    (0x0E750445, false, .bkFill 29 16 17), (0x0F14B003, false, .upFlush 5 11)] : List (BitVec 32 × Bool × Instr)), decodeWord q.1 = .ok ⟨false, q.2.1, q.2.2⟩ := by decide +kernel

/-- Words that the specification writes out, in the order of their major opcodes. -/
theorem test_words_2 : ∀ q ∈ ([
    (0x0F14B0C5, false, .upSt 5 11 3), (0x4F2C0004, true, .upClose 11), (0x0F2D1000, false, .upOpen 11 17),
    (0x0F2D4042, false, .upEmitv 11 20 1), (0x0F2D4541, false, .upEmit 11 20 21), (0x0F2D4882, false, .upEmitv 11 20 34),
    (0x0F54B005, false, .upSt 21 11 0), (0x0F58B045, false, .upSt 22 11 1), (0x0F5CB085, false, .upSt 23 11 2),
    (0x10146004, false, .tagWaitAny 5 6), (0x10146005, false, .tagFfr 5 6), (0x10400000, false, .cp 16 0 0),
    (0x50400003, true, .tagWaitAll 16), (0x104C0140, false, .cp 19 0 5), (0x104C1180, false, .cp 19 1 6),
    (0x104C21C1, false, .cp2d 19 2 7), (0x104C3202, false, .cpT 19 3 8), (0x11146040, false, .tlRd 5 6 1),
    (0x11187041, false, .tlWait 6 7 1), (0x121461C0, false, .amoAdd false 5 6 7), (0x121461D9, false, .amoCas true 5 6 7),
    (0x12209288, false, .amoSwap false 8 9 10), (0x13000008, false, .msgWait), (0x13105187, false, .msgSend 4 5 6)] : List (BitVec 32 × Bool × Instr)), decodeWord q.1 = .ok ⟨false, q.2.1, q.2.2⟩ := by decide +kernel

/-- Words that the specification writes out, in the order of their major opcodes. -/
theorem test_words_3 : ∀ q ∈ ([
    (0x13146009, false, .msgPop 5 6), (0x13147005, false, .monWait 5 7), (0x13180004, false, .monArm 6),
    (0x13200006, false, .monClr 8), (0x134C0003, false, .barWait 19 0), (0x134D4002, false, .barExp 19 20),
    (0x134D5000, false, .barInit 19 21), (0x13556009, false, .msgPop 21 22), (0x13600007, false, .msgSend 24 0 0),
    (0x13640001, false, .barArr 25), (0x14000001, false, .done), (0x1400B002, false, .emit 0 11 0),
    (0x1400D242, false, .emit 0 13 9), (0x1404A002, false, .emit 1 10 0), (0x1408D242, false, .emit 2 13 9),
    (0x141460C8, false, .gNotify 5 6 3), (0x141461C9, false, .gLaunch 5 6 7), (0x1418F003, false, .susp 6 15),
    (0x1428B000, false, .take 10 11), (0x1428C046, false, .futResP 10 12), (0x5429C006, true, .futRes 10 28),
    (0x14300004, false, .futInit 12), (0x1438C185, false, .futReg 14 12 6), (0x1438D185, false, .futReg 14 13 6)] : List (BitVec 32 × Bool × Instr)), decodeWord q.1 = .ok ⟨false, q.2.1, q.2.2⟩ := by decide +kernel

/-- Words that the specification writes out, in the order of their major opcodes. -/
theorem test_words_4 : ∀ q ∈ ([
    (0x1440D007, false, .futRd 16 13), (0x1440D047, false, .futRdS 16 13), (0x147DE008, false, .gNotify 31 30 0),
    (0x15140002, false, .phFree 5), (0x151461C0, false, .phLease 5 6 7), (0x15205241, false, .phRun 8 5 9),
    (0x16154005, false, .tkNext 5 20), (0x161540C6, false, .tkSt 5 20 3), (0x161547C6, false, .tkSt 5 20 31),
    (0x16314644, false, .tkConf 12 20 25), (0x56354682, true, .tkCmt 13 20 26), (0x16500200, false, .tkArm 20 0 8),
    (0x16511040, false, .tkArm 20 17 1), (0x5651B003, true, .tkDraft 20 27), (0x1651B003, false, .tkDraft 20 27),
    (0x16550001, false, .tkBud 21 16 0), (0x16550041, false, .tkBud 21 16 1), (0x16550200, false, .tkArm 21 16 8),
    (0x17000001, false, .eret), (0x57000001, true, .eret), (0x17000007, false, .halt), (0x17000008, false, .brk),
    (0x17000A80, false, .trap 42), (0x17140109, false, .ctrRd 5 4)] : List (BitVec 32 × Bool × Instr)), decodeWord q.1 = .ok ⟨false, q.2.1, q.2.2⟩ := by decide +kernel

/-- Words that the specification writes out, in the order of their major opcodes. -/
theorem test_words_5 : ∀ q ∈ ([
    (0x17140843, false, .crWr 5 33), (0x17140C04, false, .crSet 5 48), (0x17140C43, false, .crWr 5 49),
    (0x17141082, false, .crRd 5 0x42), (0x17142803, false, .crWr 5 0xa0), (0x17142843, false, .crWr 5 0xa1),
    (0x17143003, false, .crWr 5 0xc0), (0x17143043, false, .crWr 5 0xc1), (0x17143083, false, .crWr 5 0xc2),
    (0x1718020A, false, .ctrCfg 6 8), (0x17180C83, false, .crWr 6 50), (0x171C000B, false, .ctrClr 7),
    (0x17402003, false, .crWr 16 0x80), (0x17700002, false, .crRd 28 0), (0x177400C2, false, .crRd 29 3),
    (0x17740102, false, .crRd 29 4), (0x17780082, false, .crRd 30 2), (0x17780083, false, .crWr 30 2),
    (0x201461C1, false, .sub 5 6 7), (0x20403400, false, .add 16 3 16), (0x20800000, false, .add 32 0 0),
    (0x211461C8, false, .sel 5 6 7 8), (0x2279EFFC, false, .addi 30 30 0xffc), (0x2641000C, false, .movi 16 1 12)] : List (BitVec 32 × Bool × Instr)), decodeWord q.1 = .ok ⟨false, q.2.1, q.2.2⟩ := by decide +kernel

/-- Words that the specification writes out, in the order of their major opcodes. -/
theorem test_words_6 : ∀ q ∈ ([
    (0x26510020, false, .movi 20 1 32), (0x26740040, false, .movi 29 0 0x40), (0x27420005, false, .movk 16 2 5),
    (0x2743F000, false, .movk 16 3 0xf000), (0x281461C0, false, .fadd 5 6 7), (0x291461C8, false, .ffma 5 6 7 8),
    (0x2A0C1090, false, .vadd 3 1 2 2), (0x2A241090, false, .vadd 9 1 2 2), (0x6A840042, true, .vmul 33 0 1 0),
    (0x2C101083, false, .vfma 4 1 2 3), (0x30045181, false, .vcmpLt 1 5 6 0), (0x31083101, false, .vsel 2 3 4 1),
    (0x32081241, false, .vcvtDn 2 1 9 0), (0x7304C001, true, .vbcast 1 12 0), (0x33055001, false, .vbcast 1 21 0),
    (0x331C2143, false, .vext 7 2 5), (0x34141000, false, .vredAdd 5 1 0), (0x34182007, false, .mpopc 6 2),
    (0x350420C0, false, .vaddBf 1 2 3 0)] : List (BitVec 32 × Bool × Instr)), decodeWord q.1 = .ok ⟨false, q.2.1, q.2.2⟩ := by decide +kernel

/-- The first word of a pair has P set (R22): `ld.d s10, [s9 + 0] || add s16, s3, s16`. -/
theorem test_word_pair : decodeWord 0x85289600 = .ok ⟨true, false, .ldD 10 9 0⟩ ∧ takesNext 0x40 0x85289600 = true ∧
    takesNext 0x44 0x85289600 = false := by decide +kernel

/-- `jl.l` to 64 GiB ahead takes two words (R27). -/
theorem test_word_jl_l : decodeJlL 0x98000000 0x3F000400 = .ok ⟨true, false, .jlL 0x400000000⟩ ∧ isJlL 0x98000000 = true := by decide +kernel

/-- Words that the specification says are illegal: a queue as the d of movk and of amo.cas, tile 4, context 4, selectors 6 and
32, k 2, entry 9, fut.rd with c = 2, and the reserved majors 0x00 and 0x3F. -/
theorem test_words_illegal : ([0x27800005, 0x128061C9, 0x0D515103, 0x104C4140, 0x0F14B185, 0x16154806, 0x16550081, 0x16511240, 0x1440D087,
    0x00000000, 0x3F000400] : List (BitVec 32)).all (fun x => match decodeWord x with | .ok _ => false | .error _ => true) = true := by
  decide +kernel

/-! ## Small states -/

/-- A thread that is ready at an address, with its first registers as listed. -/
def thread (pc : Word) (regs : List Word) : Thread :=
  { slot := .ready, competes := true, pc := pc, s := Vector.ofFn (fun i => regs[i.val]?.getD 0) }

/-- The machine after reset but for slot 0 of core 0. -/
def one (t : Thread) : State := State.reset.setThread t

/-- Slot 0 of core 0 at address 0x1000. -/
def plain : State := one (thread 0x1000 [])

/-- The same, privileged. -/
def super : State := one { thread 0x1000 [] with priv := true }

/-- The same with an item of it in flight, which has number 1. -/
def flying (s : State) (home : Nat) (body : Body) : State := s.addWork (s.item home [] false body)

/-- That item. -/
def flown (s : State) (home : Nat) (body : Body) : Work := { s.item home [] false body with id := 1 }

/-- An item is due, as a test that evaluates. -/
def ready (s : State) (k : Nat) (w : Work) : Bool :=
  decide (s.findWork k = some w) && s.clear w && w.flush.isNone && (!w.release || w.deps.isEmpty) && !s.betweenLanes w && !s.holdsArrival w &&
    (channelHomed w.home).isNone

theorem lands_of_ready {s : State} {k : Nat} {w : Work} (h : ready s k w = true) : s.lands k w := by
  simp only [ready, Bool.and_eq_true, decide_eq_true_eq, Option.isNone_iff_eq_none, Bool.or_eq_true, Bool.not_eq_true',
    List.isEmpty_iff] at h
  obtain ⟨⟨⟨⟨⟨⟨a, b⟩, c⟩, d⟩, e⟩, f⟩, g⟩ := h
  exact ⟨a, b, c, fun hr => d.resolve_left (by simp [hr]), fun x hx => by simp [g] at hx, e, f⟩

theorem due_of_ready {s : State} {k : Nat} {w : Work} (h : ready s k w = true) (hl : w.link = .clean := by rfl) : s.due k w :=
  ⟨lands_of_ready h, hl⟩

theorem arrive_of_ready {s : State} {k : Nat} {w : Work} (h : ready s k w = true) : s.arrive w = s := by
  simp only [ready, Bool.and_eq_true, Option.isNone_iff_eq_none] at h
  simp [State.arrive, h.2]

theorem unheld_of_calm {s : State} (h : s.regions = []) (w : Work) : s.unheld w := by
  simp [State.unheld, State.regionAccess, h]

theorem reaches_of_calm {s : State} {w : Work} {a : Access} (h : s.regions = []) (ha : a.via = .scratch) : s.reaches w a :=
  ⟨.inl ha, unheld_of_calm h _⟩

theorem arrived_reaches {s : State} {k : Nat} {w : Work} {a : Access} (h : ready s k w = true) (hr : s.regions = []) (ha : a.via = .scratch)
    (hl : w.link = .clean := by rfl) : s.due k w ∧ (s.arrive w).reaches w a := by
  rw [arrive_of_ready h]
  exact ⟨due_of_ready h hl, reaches_of_calm hr ha⟩

/-- A word of core 0's scratchpad at an offset. -/
def cell (off n : Nat) : Access := ⟨scratchKey 0 off, n, .scratch, BitVec.ofNat 64 (scratchKey 0 off), []⟩

/-- Its address. -/
def at0 (off : Nat) : Word := BitVec.ofNat 64 (scratchKey 0 off)

/-! ## States that meet the statements' hypotheses -/

/-- ScalarResults, DivisionAndImmediateResults, FloatResults, VectorIntegers, VectorFloats, PackedFloats, MaskAndMoveResults,
VectorReductions, Transfers, GatherScatter, QueueOperands: register operands up to s31, v7 and lane 15. -/
theorem witness_operands : plain.placed ∧ registers [31, 0, 31, 31, 1] ∧ plain.provides [7, 0, 7, 7] ∧ (15 : Opd).toNat < 16 := by
  unfold State.placed registers State.provides; decide +kernel

/-- FloatResults, VectorFloats, MaskAndMoveResults, VectorConversions: no flag that is raised is enabled, and one is. -/
theorem witness_quiet : plain.quiet 31 ∧ ¬ (one { thread 0 [] with enables := 8 }).quiet 8 := by
  unfold State.quiet; decide +kernel

/-- VectorConversions and BlockConversions: formats without and with block scales. -/
theorem witness_formats : vcvtFmt 1 = true ∧ familyOf 1 = none ∧ (fmtOf 1).isSome = true ∧ vcvtFmt 13 = true ∧ familyOf 13 = none ∧
    (fmtOf 13).isSome = true ∧ vcvtFmt 0x29 = true ∧ (familyOf 0x29).isSome = true ∧ vcvtFmt 0x2E = true ∧ (familyOf 0x2E).isSome = true := by
  decide +kernel

/-- Transfers: targets that are aligned, the lowest and highest offsets among them, and targets that are not. -/
theorem witness_targets : (plain.pc + (0x0FF : BitVec 9).signExtend 64 * 4).toNat % 4 = 0 ∧
    (plain.pc + (0x100 : BitVec 9).signExtend 64 * 4).toNat % 4 = 0 ∧
    ((one (thread 0x1002 [])).pc + (0 : BitVec 9).signExtend 64 * 4).toNat % 4 ≠ 0 ∧
    ((one (thread 0x1000 [0, 3])).scalar 1).toNat % 4 ≠ 0 := by decide +kernel

/-- LoadsAndStores, FullEmpty, BarriersAndMonitors, Atomics: addresses that pass their checks, at the end of the scratchpad, and
addresses that fail. -/
theorem witness_addresses :
    plain.checkAddr (at0 0x3FFF8) 8 rawWindows true { r := true } false = (.ok (cell 0x3FFF8 8), plain) ∧
    plain.checkAddr (at0 0x3FFC0) 64 rawWindows true { w := true } false = (.ok (cell 0x3FFC0 64), plain) ∧
    plain.checkAddr (at0 0) 8 rawWindows false {} false = (.ok (cell 0 8), plain) ∧
    plain.checkAddr (at0 4) 4 rawWindows true { r := true, w := true } true = (.ok (cell 4 4), plain) ∧
    plain.checkAddr (at0 16) 16 rawWindows false {} false = (.ok (cell 16 16), plain) ∧
    plain.checkAddr (at0 64 &&& ~~~63) 64 rawWindows true { r := true, w := true } true = (.ok (cell 64 64), plain) ∧
    plain.held (cell 0x3FFF8 8).key 8 false = false ∧ plain.held (cell 0 8).key 8 true = false ∧
    plain.checkAddr (at0 9) 8 rawWindows true { r := true } false = (.error 0x13, plain) ∧
    plain.checkAddr (at0 9) 8 rawWindows false {} false = (.error 0x13, plain) ∧
    plain.checkAddr (at0 8) 16 rawWindows false {} false = (.error 0x13, plain) ∧ plain.thread.pend = .none ∧
    (31 : Opd).toNat < vectorRegs 2 ∧ (7 : Opd).toNat < vectorRegs plain.me.mode := by decide +kernel

/-- FullEmpty: a word that is full and one that is empty, for each operation. -/
theorem witness_full_empty : ([FeOp.ldFe, .ldFf, .stEf, .stF].all fun op =>
    let b : Body := .fe op (cell 8 8) (.s 5) 7
    let s := flying plain 0x10000 b
    let f : State := { s with full := [scratchKey 0 8 / 8] }
    let w := flown plain 0x10000 b
    ready s 1 w && ready f 1 w && w.arrived.isNone && s.work.all (fun y => y.arrived.isNone) && f.isFull (cell 8 8).key &&
      !s.isFull (cell 8 8).key && s.gone w.deps && !(s.threadAt w.core w.slot).halting) = true := by decide +kernel

/-- WindowAccesses: an FP32 element through window 3 of a core whose entry 0 is set, and one whose entry is not. -/
theorem witness_windows :
    let s := plain.setMe { plain.me with win := vset plain.me.win 0 (2 ^ 63 + 0x0A) }
    let ea := at0 0 + 0x0030000000000000
    (match s.windowSpan ea formatWindows 1 with
      | .ok w => (w.parts ea).all (fun p => !s.held p.1.key p.1.n false) && !(w.parts ea).isEmpty
      | .error _ => false) = true ∧
    (match s.windowSpan ea elementWindows 16 with
      | .ok w => (w.parts ea).all (fun p => !s.held p.1.key p.1.n true) && !(w.parts ea).isEmpty
      | .error _ => false) = true ∧
    plain.windowSpan ea formatWindows 1 = .error 0x31 ∧ plain.windowSpan ea elementWindows 16 = .error 0x31 := by decide +kernel

/-- GatherScatter: all sixteen lanes pass, and a lane fails. -/
theorem witness_lanes :
    (match plain.laneAccesses (at0 0) 0 (BitVec.allOnes 16) (List.range 16) with
      | .ok l => l.length == 16 && l.all (fun p => !plain.held p.2.key p.2.n true) && l.all (fun p => !plain.held p.2.key p.2.n false)
      | .error _ => false) = true ∧
    (match plain.laneAccesses (at0 2) 0 1 (List.range 16) with | .ok _ => false | .error _ => true) = true := by decide +kernel

/-- A page of zeros, readable and written, at address 0, held by the core's TLB. -/
def paged : State := plain.setMe { plain.me with dtlb := [⟨0, true, 0, 4096, 0x3F⟩] }

/-- AddressChecks: an address for each cause, and ones that pass. -/
theorem witness_checks :
    (0x01FFFFFFFFFFFFFF : Word).toNat / 2 ^ 56 ≠ 0 ∧ (0x01FFFFFFFFFFFFFF : Word).toNat / 2 ^ 56 ≠ 0xF0 ∧
    (at0 0).toNat / 2 ^ 56 = 0xF0 ∧ plain.wellPlaced ((at0 0).toNat + 2 ^ 22) = false ∧
    plain.wellPlaced (at0 0).toNat = true ∧ rawWindows (bits (at0 0).toNat 55 52) = true ∧
    plain.wellPlaced ((at0 0).toNat + 3 * 2 ^ 52) = true ∧ rawWindows (bits ((at0 0).toNat + 3 * 2 ^ 52) 55 52) = false ∧
    2 ^ 22 ≤ (at0 0).toNat % 2 ^ 22 + (one { thread 0 [] with seg := 2 ^ 22 }).src.seg ∧
    (match plain.place (at0 0x3FFFF).toNat plain.src.seg rawWindows with | .ok _ => true | .error _ => false) = true ∧
    (match (paged.translateMe 0xFF8 { r := true }).1 with | .ok t => paged.reachable 0 (t.keyOf 0xFF8) | .error _ => false) = true ∧
    (match (plain.translateMe 0xFF8 { r := true }).1 with | .ok _ => false | .error _ => true) = true := by decide +kernel

/-- PrefetchesAndFences: a thread with nothing to wait for, and one with a store in flight. -/
theorem witness_fences : plain.thread.pend = .none ∧ plain.releaseDeps 3 = [] ∧ plain.releaseDeps 2 = [] ∧ plain.releaseDeps 1 = [] ∧
    plain.releaseDeps 0 = [] ∧ (plain.flushFor 0 3).1 = [] ∧ (plain.flushFor 0 2).1 = [] ∧
    (flying plain 0x10000 (.store (cell 0 8) 1 255)).releaseDeps 3 ≠ [] ∧
    (flying plain 0x10000 (.store (cell 0 8) 1 255)).releaseDeps 2 ≠ [] := by decide +kernel

/-- Atomics: an atomic of 8 bytes and one of 4 at their home; an amo.cas that fails and one that does not. -/
theorem witness_atomics :
    let b : Body := .amo .cas (cell 8 8) (.s 5) 7 1
    let c : Body := .amo .add (cell 4 4) .none 7 0
    let s := flying plain 0x10000 b
    let t := flying plain 0x10000 c
    s.due 1 (flown plain 0x10000 b) ∧ t.due 1 (flown plain 0x10000 c) ∧ s.reaches (flown plain 0x10000 b) (cell 8 8) ∧
      t.reaches (flown plain 0x10000 c) (cell 4 4) ∧ s.arrives 0 0x10000 (cell 8 8).key = true ∧ s.readNat (cell 8 8).key 8 ≠ 1 := by
  exact ⟨due_of_ready (by decide +kernel), due_of_ready (by decide +kernel), reaches_of_calm rfl rfl, reaches_of_calm rfl rfl,
    by decide +kernel, by decide +kernel⟩

/-- BarriersAndMonitors: a thread that asks, one that has its answer, and one that is refused; a monitor that is armed already, four
armed monitors, a wait with something to report and one without. -/
theorem witness_waits :
    let armed : Thread := { thread 0 [] with monitors := [⟨1, (cell 64 64).key, 0, true, true⟩] }
    let four : Thread := { thread 0 [] with monitors := List.replicate 4 ⟨1, 0, 0, false, true⟩ }
    plain.thread.pend = .none ∧ (one { thread 0 [] with pend := .answered 0 }).thread.pend = .answered 0 ∧
    (one { thread 0 [] with pend := .refused 0x55 0 0 }).thread.pend = .refused 0x55 0 0 ∧
    (one { thread 0 [] with pend := .deadline 0 }).thread.pend = .deadline 0 ∧
    (one armed).thread.monitors.any (fun m => m.key == (cell 64 64).key) = true ∧ (one armed).thread.hits ≠ 0 ∧
    (one four).thread.monitors.any (fun m => m.key == (cell 64 64).key) = false ∧ (one four).thread.monitors.length = 4 ∧
    (one four).thread.hits = 0 ∧ (one four).me.mailbox = [] ∧ plain.acquiring = false ∧
    (plain.addWork (plain.item 0x10000 [] true (.fe .ldFe (cell 0 8) (.s 5) 0))).acquiring = true ∧
    (one { thread 0 [] with pend := .elapsed }).thread.pend = .elapsed ∧ plain.readTurn [(64, 64)] = true := by decide +kernel

/-- Messages: a core that is present and one that is not, a full buffer, an empty mailbox and one that holds messages. -/
theorem witness_messages :
    let m : Msg := ⟨1, 2⟩
    let full := plain.setMe { plain.me with mailbox := List.replicate 16 m, inbox := [m] }
    plain.coreNamed 2047 = true ∧ plain.coreNamed 2048 = false ∧ plain.buffered 0 2047 < plain.bufCap ∧
    ({ plain with bufCap := 0 } : State).bufCap ≤ plain.buffered 0 2047 ∧ plain.me.mailbox = [] ∧ full.me.mailbox = m :: List.replicate 15 m := by
  decide +kernel

/-- StorePerformed, LoadPerformed and WriteBacks: a store, a load and a write-back at their homes. -/
theorem witness_performed :
    let b : Body := .store (cell 0 8) 5 255
    let l : Body := .load [cell 0 8] 0 0 none (.s 5) .sign
    let v : Body := .writeBack 0 0 7 1 1 []
    (flying plain 0x10000 b).due 1 (flown plain 0x10000 b) ∧ (flying plain 0x10000 b).reaches (flown plain 0x10000 b) (cell 0 8) ∧
    (flying plain 0x10000 l).due 1 (flown plain 0x10000 l) ∧ (flying plain 0x10000 l).reaches (flown plain 0x10000 l) (cell 0 8) ∧
    (flying plain 0x10000 v).due 1 (flown plain 0x10000 v) ∧ (flying plain 0x10000 v).unheld (flown plain 0x10000 v) ∧
    (flying plain 0x10000 b).arrives 0 0x10000 (cell 0 8).key = true ∧ (flying plain 0x10000 v).pathLive 0x10000 = true ∧
    (cell 0 8).via ≠ .cached := by
  exact ⟨due_of_ready (by decide +kernel), reaches_of_calm rfl rfl, due_of_ready (by decide +kernel), reaches_of_calm rfl rfl,
    due_of_ready (by decide +kernel), unheld_of_calm rfl _, by decide +kernel, by decide +kernel, by decide⟩

/-- StorePerformed: a store to a write-back page, at the end of a sector; LoadPerformed: bytes at either end of their range. -/
theorem witness_cached :
    let a : Access := ⟨60, 4, .cached, 60, []⟩
    let b : Body := .store a 5 (2 ^ 32 - 1)
    (flying plain 0x10000 b).due 1 (flown plain 0x10000 b) ∧ (flying plain 0x10000 b).inRegion (a.key / 64 * 64) 64 = false ∧ 0 < a.n ∧
    a.key % 64 + a.n ≤ 64 ∧ a.via = .cached ∧ plain.bad = [] ∧ 2 ^ 64 - 1 < 256 ^ 8 ∧ 255 < 256 ^ 1 := by
  exact ⟨due_of_ready (by decide +kernel), by decide +kernel⟩

/-- Returns: results for every kind of destination, and a fetched block. -/
theorem witness_returns : ([Dst.none, .dropped, .s 31, .m 7, .v 7 0xFFFF, .q 7 9].all fun d =>
    let b : Body := .ret d 5 none 1 []
    let s := flying plain 0 b
    decide (s.findWork 1 = some (flown plain 0 b)) && (s.threadAt 0 0).pendTrap.isNone && (s.threadAt 0 0).errTrap.isNone) = true ∧
    (flying (one { thread 0 [] with pend := .fetch 64 }) 0x20000 (.fetch 64 [])).findWork 1 =
      some (flown (one { thread 0 [] with pend := .fetch 64 }) 0x20000 (.fetch 64 [])) := by decide +kernel

/-- WriteBacks: a clean sector and a dirty one to evict. -/
theorem witness_evictions :
    let clean := plain.setCluster 0 { plain.cluster 0 with sectors := [{ key := 64, fill := true }] }
    let dirty := plain.setCluster 0 { plain.cluster 0 with sectors := [{ key := 64, mask := 1, writers := 1 }] }
    (clean.cluster 0).sector 64 = some { key := 64, fill := true } ∧
    (dirty.cluster 0).sector 64 = some { key := 64, mask := 1, writers := 1 } := by decide +kernel

/-- MessagesAndCoreEvents: a message for a mailbox with room, for a full one, and a corrupted one; a timed wait that ends; a rotation
boundary. -/
theorem witness_core_events :
    let b : Body := .msg 0 ⟨1, 2⟩
    let w := flown plain (mailHome 0) b
    let room := flying plain (mailHome 0) b
    let full := room.setMe { room.me with mailbox := List.replicate 16 ⟨1, 2⟩ }
    let bad : State := { room with work := [{ w with link := .corrupt }] }
    let timed := (one { thread 0 [] with slot := .parked, pend := .deadline 1 }).setMe
      { (one { thread 0 [] with slot := .parked, pend := .deadline 1 }).me with clock := 1, boundary := true }
    room.due 1 w ∧ full.due 1 w ∧ bad.lands 1 { w with link := .corrupt } ∧ (room.core 0).inbox = [] ∧ (room.core 0).mailbox.length < 16 ∧
    16 ≤ (full.core 0).mailbox.length ∧ (timed.threadAt 0 0).pend = .deadline 1 ∧ 1 ≤ (timed.core 0).clock ∧
    (timed.threadAt 0 0).slot = .parked ∧ (timed.core 0).boundary = true := by
  exact ⟨due_of_ready (by decide +kernel), due_of_ready (by decide +kernel), lands_of_ready (by decide +kernel), by decide +kernel⟩

/-- AddressChecks: an access in window 1 whose last byte falls to a core that is absent, one beyond the offsets, and a path that is down. -/
theorem witness_granules :
    let s : State := { plain with fused := [15], absent := [15] }
    (match s.place 0xF0100000000003BC 0 rawWindows with
      | .ok p => !s.lastPresent p 956 8 && s.lastPresent p 952 8 && s.lastPresent p (2 ^ 22 - 4) 8 | .error _ => false) = true ∧
    ({ plain with deadPorts := [0, 1] } : State).reachable 0 (2 * 2 ^ 56) = false := by decide +kernel

/-- PrefetchesAndFences: a fence that waits for what is gone, and for what is not, before its write-backs and after them; and one
whose cluster has something to write back. -/
theorem witness_fence_waits :
    let w (n : Nat) := one { thread 0x1000 [] with pend := .wait n [1] }
    let b : Body := .store (cell 0 8) 1 255
    let dirty := plain.setCluster 0 { plain.cluster 0 with sectors := [{ key := 64, mask := 1, writers := 1 }] }
    (w 0).thread.pend = .wait 0 [1] ∧ (w 0).gone [1] = true ∧ (flying (w 0) 0x10000 b).gone [1] = false ∧
    (w 1).thread.pend = .wait 1 [1] ∧ (w 1).gone [1] = true ∧ (flying (w 1) 0x10000 b).gone [1] = false ∧
    (dirty.flushFor 0 3).1 ≠ [] ∧ (dirty.flushFor 0 2).1 ≠ [] ∧ dirty.releaseDeps 3 = [] := by decide +kernel

/-- BarriersAndMonitors: operations on a barrier object, with a thread that is held for it and one that has asked. -/
theorem witness_barriers :
    let t : Thread := { thread 0 [] with pend := .wait 70 [1] }
    let acc : Access := { cell 0 16 with n := 16 }
    let at_ (op : Nat) (x : Word) (m : List Host.Cell) : State × Work :=
      let b : Body := .bar op acc x
      ({ flying (one t) 0x10000 b with mem := m }, flown (one t) 0x10000 b)
    let ok (p : State × Work) : Bool := ready p.1 1 p.2 && decide ((p.1.threadAt 0 0).pend = .wait 70 [1]) && p.2.arrived.isNone
    let one_ : List Host.Cell := [⟨scratchKey 0 4, 1⟩]
    let most : List Host.Cell := [⟨scratchKey 0 8, 1⟩, ⟨scratchKey 0 15, 0x80⟩]
    ok (at_ 0 0 []) = true ∧ ok (at_ 0 (2 ^ 20) []) = true ∧ ok (at_ 0 (2 ^ 20 - 1) []) = true ∧ ok (at_ 1 0 []) = true ∧
    ok (at_ 1 0 one_) = true ∧ ok (at_ 2 8 []) = true ∧ ok (at_ 2 (-2) most) = true ∧ ok (at_ 3 0 []) = true ∧ ok (at_ 3 1 []) = true ∧
    (barrierOf ((at_ 1 0 []).1.readNat acc.key 16)).pend = 0 ∧ (barrierOf ((at_ 1 0 one_).1.readNat acc.key 16)).pend = 1 ∧
    (barrierOf ((at_ 2 (-2) most).1.readNat acc.key 16)).bytes + (-2) < -(2 ^ 63) ∧ plain.bad = [] ∧ plain.soft = [] ∧
    (barrierOf ((at_ 3 0 []).1.readNat acc.key 16)).phase = 0 := by decide +kernel

/-- BarriersAndMonitors: a monitor on its way to its home. -/
theorem witness_monitor_home :
    let b : Body := .monArm 1 (scratchKey 0 64) []
    let s := one { thread 0 [] with pend := .wait 70 [1] }
    ready (flying s 0x10000 b) 1 (flown s 0x10000 b) = true ∧ isScratch (scratchKey 0 64) = true ∧
    ((flying s 0x10000 b).threadAt 0 0).pend = .wait 70 [1] ∧ plain.thread.monitors.length < 4 := by decide +kernel

/-- MessagesAndCoreEvents: a message whose conditions have come to hold. -/
theorem witness_release_sent :
    let b : Body := .msg 0 ⟨1, 2⟩
    let w := { flown plain (mailHome 0) b with deps := [7] }
    let s : State := { flying plain (mailHome 0) b with work := [w] }
    s.findWork 1 = some w ∧ w.deps ≠ [] ∧ w.flush = none ∧ s.gone w.deps = true ∧ s.mayBeSent w = true := by decide +kernel


/-- Bytes in the scratchpad of core 0: offsets and values, none zero. -/
def stored (s : State) (l : List (Nat × Byte)) : State := { s with mem := l.map (fun c => ⟨scratchKey 0 c.1, c.2⟩) }

/-- A live tensor of two by two FP32 elements. -/
def tens : Tensor :=
  { handle := 5, owner := 0, desc := ⟨1, 0, 0, [2, 2], 0⟩, ops := 0, rep := ⟨.lin, .dieLocal, false⟩, nextRep := ⟨.lin, .dieLocal, false⟩,
    home := 0, frames := [], quota := 0, rawBase := 0, rawPte := 0, asid := 0, elems := [], scales := [], sticky := 0, freed := false }

/-- Privileged, with three registers. -/
def withRegs (a b c : Word) : State := one { thread 0x1000 [0, a, b, c] with priv := true }

/-- Maintenance: ranges that are wrong, empty and right; an invalidation in flight and none; sectors that a range covers. -/
theorem witness_maintenance :
    let dirty : Sector := { key := 64, mask := 1, writers := 1 }
    let s := withRegs 0 0x1000 0
    let held := s.setCluster 0 { s.cluster 0 with sectors := [dirty] }
    s.placed ∧ s.privileged = true ∧ (s.scalar 1).toNat % 4096 = 0 ∧ (s.scalar 2).toNat % 4096 = 0 ∧ s.scalar 2 ≠ 0 ∧
    s.thread.pend = .none ∧ s.releaseDeps 3 = [] ∧ (s.flushFor s.curCore 3).1 = [] ∧
    (withRegs 1 0x1000 0).scalar 1 = 1 ∧ (withRegs 0 1 0).scalar 2 = 1 ∧ (withRegs 0 0 0).scalar 2 = 0 ∧
    2 ^ 56 < ((withRegs 0x00FFFFFFFFFFF000 0x2000 0).scalar 1).toNat + ((withRegs 0x00FFFFFFFFFFF000 0x2000 0).scalar 2).toNat ∧
    ((withRegs 0x00FFFFFFFFFFF000 0x2000 0).scalar 1).toNat / 2 ^ 56 ≠ 0xF0 ∧ ((withRegs (at0 0) 64 0).scalar 1).toNat / 2 ^ 56 = 0xF0 ∧
    ((flying plain 0 (.inval 0 0 0 0 4096 [])).work.any (fun w => w.of 0 0 && (match w.body with | .inval .. => true | _ => false)) = true) ∧
    (plain.work.any (fun w => w.of 0 0 && (match w.body with | .inval .. => true | _ => false)) = false) ∧
    (flying plain 0 (.debug true)).findWork 1 ≠ none ∧ plain.findWork 1 = none ∧ held.dirtyBad = [] ∧
    (let t := held.setMe { held.me with dtlb := [⟨0, true, 0, 4096, 0x3F⟩] }
     coversBlock (t.maintained 0 4096 3).1 64 = true ∧ coversBlock (t.maintained 0 4096 3).1 4096 = false) ∧
    (held.cluster 0).sectors = [dirty] ∧ dirty.mask ≠ 0 ∧ dirty.key % 64 = 0 ∧ s.clusterInPartition 0 0 = true := by
  unfold State.placed; decide +kernel

theorem witness_maintenance_calm : ∀ w ∈ plain.work, ∀ cl key data mask writers trans, w.body ≠ .writeBack cl key data mask writers trans := by
  intro w h; exact absurd (show w ∈ ([] : List Work) from h) (by simp)

/-- TensorInstructions and TensorCommands: a live handle and others; every state that a request can be in; a command that
arrives and the first of a handle; an operation set with reserved bits and one without. -/
theorem witness_tensors :
    let s : State := { (withRegs 0 5 0) with tensors := [tens] }
    let cmd (c : HandleCmd) : Body := .handle c none
    let fly (c : HandleCmd) := flying s (controllerHome 0) (cmd c)
    let w (c : HandleCmd) := flown s (controllerHome 0) (cmd c)
    s.placed ∧ s.privileged = true ∧ s.tensor 5 = some tens ∧ tens.freed = false ∧ tens.owner = s.partOf 0 ∧ (s.tensor 6).all (·.freed) = true ∧
    s.acquiring = false ∧ (s.addWork (s.item 0x10000 [] true (.fe .ldFe (cell 0 8) (.s 5) 0))).acquiring = true ∧
    bits (s.scalar 3).toNat 63 13 = 0 ∧ bits ((withRegs 0 5 0x2000).scalar 3).toNat 63 13 ≠ 0 ∧
    (one { thread 0 [] with pend := .answered 5 }).thread.pend = .answered 5 ∧
    (fly (.q 5 1 none 0)).findWork 1 = some (w (.q 5 1 none 0)) ∧
    (HandleCmd.free 7).handles = [7] ∧ s.liveHandle 0 7 = false ∧ ready (fly (.free 7)) 1 (w (.free 7)) = true ∧ (w (.free 7)).arrived = none ∧
    ready (fly (.free 5)) 1 (w (.free 5)) = true ∧ ready (fly (.q 5 1 none 0)) 1 (w (.q 5 1 none 0)) = true ∧ (w (.free 5)).slot < 16 ∧
    (fly (.free 5)).first (w (.free 5)) = false ∧
    (let y := { w (.free 5) with arrived := some 1 }
     let t : State := { s with work := [y] }
     t.findWork 1 = some y ∧ t.first y = true ∧ t.regions = []) ∧
    (let y := { w (.widen 5 0 none) with arrived := some 1 }
     let t : State := { s with work := [y] }
     t.findWork 1 = some y ∧ t.first y = true) ∧
    (let y := { w (.widen 5 0 (some (⟨.tiled64, .striped, false⟩, [], false))) with arrived := some 1 }
     let t : State := { s with work := [y] }
     t.findWork 1 = some y ∧ t.first y = true ∧ tens.rawPte = 0) := by
  unfold State.placed; decide +kernel

/-- Blocks in the scratchpad for the tensor instructions: a view of all four elements at 0, tensor descriptors at 64 and 128, phrases at
192, 256 and 320, a gather header at 384, and region descriptors at 448, 512 and 576, each written out from its layout. -/
def issueCells : List (Nat × Byte) := [(0, 5), (8, 2), (36, 1), (38, 1), (46, 1), (48, 1), (64, 1), (65, 1), (72, 4),
  (128, 1), (129, 1), (131, 0x0C), (136, 4), (192, 2), (193, 1), (196, 0x10), (197, 0x70),
  (256, 4), (257, 2), (260, 0x10), (261, 0x11), (262, 0x30), (263, 0x70),
  (320, 4), (321, 2), (324, 0x10), (325, 0x11), (326, 0x30), (327, 0x70), (368, 6), (384, 1),
  (448, 5), (464, 1), (480, 4), (484, 1), (497, 1), (503, 0xF0), (512, 5), (528, 1), (544, 4), (548, 1), (567, 0xF0), (576, 5), (631, 0xF0)]

/-- A state that holds them, with three registers, and two tensors of different shapes. -/
def issuing (a b c : Word) : State :=
  { stored (withRegs a b c) issueCells with tensors := [tens, { tens with handle := 6, desc := { tens.desc with dims := [4] } }] }

/-- The bytes of a run that a thread reads at issue. -/
def readsAt (s : State) (ea : Word) (n : Nat) : Nat :=
  match s.rawRun ea n 0x43 with | .ok r => if s.runReadable r then (s.readRun 0 r).1 else 0 | .error _ => 0

/-- The bytes of a block that a thread reads at issue. -/
def blockOf (s : State) (ea : Word) : Nat :=
  match s.blockAt ea 64 with
  | .ok a => (match s.readNow a with | some (x, _) => x | none => 0)
  | .error _ => 0

/-- TensorIssue: addresses that fail their checks, and that pass; a run that may not be read yet. -/
theorem witness_tensor_addresses :
    let s := issuing (at0 0) (at0 64) (2 ^ 40)
    let busy := flying s 0x10000 (.store (cell 0 8) 1 255)
    let fails (r : Except Nat (List (Nat × Nat))) (e : Nat) : Bool := match r with | .ok _ => false | .error f => f == e
    s.bad = [] ∧ s.soft = [] ∧ s.thread.pend = .none ∧ s.rowThree (at0 64) rawWindows = none ∧ s.rowThree 0 rawWindows = some 0x46 ∧
    s.rowThree (at0 0 + 2 * 2 ^ 52) rawWindows = some 0x46 ∧ s.rowThree (at0 0x1000) transferWindows = none ∧
    fails (s.rawRun (at0 (2 ^ 22 - 32)) 64 0x43) 0x43 = true ∧ busy.runReadable [(scratchKey 0 0, 8)] = false ∧
    (match s.transferRun (at0 0x1000) 1 4 true with | .ok r => s.runReadable r.ranges | .error _ => false) = true ∧
    (match s.transferRun (at0 0x1001) 1 4 true with | .ok _ => false | .error e => e == 0x46) = true := by
  decide +kernel

/-- TensorIssue: blocks that break a limit and blocks that break none; live handles and others; ranges and shapes. -/
theorem witness_tensor_issue :
    let s := issuing (at0 0) (at0 64) (2 ^ 40)
    let phr (at_ : Word) := (phraseOf (readsAt s at_ 64)).map (fun p => HandleCmd.phr 5 p 0 4)
    viewOf (readsAt s (at0 0) 64) 2 1 = some ⟨5, false, 0, [0, 0], [2, 2], [1, 1], [0, 0], [0, 0]⟩ ∧ viewOf (readsAt s (at0 64) 64) 2 1 = none ∧
    descOf (readsAt s (at0 0) 64) 0 = none ∧
    (descOf (readsAt s (at0 64) 64) 0).map (fun d => incompatible d.ops) = some false ∧
    (descOf (readsAt s (at0 128) 64) 0).map (fun d => incompatible d.ops) = some true ∧
    byteField (readsAt s (at0 384) 8) 3 0 = 1 ∧ byteField (readsAt s (at0 384) 8) 7 4 = 0 ∧ byteField (readsAt s (at0 392) 8) 3 0 = 0 ∧
    (at0 388).toNat % 8 ≠ 0 ∧ readsAt s (at0 384) 12 % 2 ^ 64 = 1 ∧ s.tensor 5 = some tens ∧ s.tensor 7 = none ∧
    (phr (at0 192)).map HandleCmd.handles = some [5] ∧ (phr (at0 256)).map HandleCmd.handles = some [5, 0] ∧ s.liveHandle 0 0 = false ∧
    (phr (at0 320)).map HandleCmd.handles = some [5, 6] ∧ s.liveHandle 0 6 = true ∧ phr (at0 0) = none ∧
    badRange tens.desc 0 4 = false ∧ badRange tens.desc 1 4 = true ∧
    (s.tensor 6).any (fun t => t.desc.dims != tens.desc.dims) = true ∧ (s.tensor 5).any (fun t => t.desc.dims != tens.desc.dims) = false := by
  decide +kernel

/-- TensorIssue: region descriptors that break a limit, overlap a region, meet an opening one, name no phrase, lack UPDATE, and pass. -/
theorem witness_region_issue :
    let s := (issuing 0 (at0 448) 0).setMe { (issuing 0 (at0 448) 0).me with dtlb := [⟨0, true, 0, 4096, 0x3F⟩] }
    let v := blockOf s (at0 448)
    let d : RegionDesc := ⟨5, 0, 1, [], 4, 1, false, ⟨[], 0, [], 0, 0⟩, [], 0⟩
    BitVec.ofNat 64 (byteField v 55 48) = at0 256 ∧ byteField v 7 0 = 5 ∧ regionOk v tens = true ∧ regionOk (blockOf s (at0 576)) tens = false ∧
    regionOk (blockOf s (at0 512)) tens = true ∧
    ((phraseOf (blockOf s (at0 256))).bind (fun p => if p.nh = 2 ∧ p.h1 = 0 ∧ p.h2 = 0 then some p else none)).isSome = true ∧
    phraseOf (blockOf s (at0 0)) = none ∧ d.overlaps { d with first := 1 } = false ∧ d.overlaps d = true ∧ s.regions = [] ∧ s.opening d = false ∧
    (flying s (controllerHome 0) (.handle (.upOpen d) none)).opening d = true ∧ tens.ops.testBit 4 = false ∧
    ({ tens with ops := 16 } : Tensor).ops.testBit 4 = true ∧
    (match (s.translateAll (byteField v 31 24) 64 { r := true, w := true }).1 with | .ok l => l.length == 1 | .error _ => false) = true ∧
    (match ((issuing 0 0 0).translateAll 0 64 { r := true, w := true }).1 with | .ok _ => false | .error e => e.1 == 0x11) = true := by
  decide +kernel

/-- TensorPerformed: a command that arrives with what it needs and one that lacks it, and each command first of its handle. -/
theorem witness_tensor_performed :
    let u : Tensor := { tens with ops := 0x1F }
    let s : State := { (withRegs 0 5 0) with tensors := [u] }
    let v : View := ⟨5, false, 0, [0, 0], [2, 2], [1, 1], [0, 0], [0, 0]⟩
    let run : Run := ⟨[(scratchKey 0 0x1000, 16)], none, 0, 0, 0, 4, []⟩
    let p : Phrase := ⟨[0x10, 0x70], 1, [], 0, 0⟩
    let d : RegionDesc := ⟨5, 0, 1, [], 4, 1, false, ⟨[], 0, [], 0, 0⟩, [], 0⟩
    let b (c : HandleCmd) : Body := .handle c none
    let comes (s : State) (c : HandleCmd) : Bool := ready (flying s (controllerHome 0) (b c)) 1 (flown s (controllerHome 0) (b c)) &&
      (flown s (controllerHome 0) (b c)).arrived.isNone && c.handles.all (s.liveHandle 0)
    let first (c : HandleCmd) : Bool :=
      let w := { flown s (controllerHome 0) (b c) with arrived := some 1 }
      let t : State := { s with work := [w] }
      decide (t.findWork 1 = some w) && t.first w && t.regions.isEmpty && decide (t.tensor 5 = some u) && !t.prior w run.ranges
    let lacks (s : State) (c : HandleCmd) : Bool := (s.needs c).any (fun p => match s.tensor p.1 with
      | some t => needOn (s.needs c) p.1 &&& (0xFFFF - t.ops) != 0
      | none => true)
    let none_ : State := { s with tensors := [tens] }
    let last : State := { s with frameNext := (List.range 8).map (fun st => (st, stackFrames)), freeFrames := [frameKey 0 7] }
    let busy := flying last (channelHome 0) (.store ⟨frameKey 0 7, 8, .home, 0, []⟩ 0 255)
    comes s (.new u.desc) = true ∧ (s.newTensor 0 0 u.desc).isSome = true ∧ (last.newTensor 0 0 u.desc).isSome = true ∧
    comes busy (.new u.desc) = false ∧ (busy.newTensor 0 0 u.desc).isNone = true ∧
    ([HandleCmd.ld v run, .st v run 0, .gat 5 [0] run, .phr 5 p 0 4, .upOpen d].all fun c => comes s c && !lacks s c && lacks none_ c && comes none_ c) = true ∧
    ([HandleCmd.ld v run, .st v run 0, .gat 5 [0, 9] run, .phr 5 p 0 4, .q 5 1 (some (.s 5)) 0, .upOpen d].all first) = true ∧
    (fmtOf u.desc.fmt).isSome = true ∧ familyOf u.desc.fmt = none ∧ u.rawPte = 0 ∧ s.thread.pendTrap = none ∧ s.thread.errTrap = none ∧
    (v.sorted u.desc.dims (rawDecode 1 0 4)).1.length = 4 := by
  decide +kernel

/-- A tile configuration of 16 by 16 by 32 INT8, dense, written out from its layout. -/
def cfgBytes : Nat := 16 + 16 * 2 ^ 16 + 32 * 2 ^ 32 + 0x0A * 2 ^ 48 + 0x0A * 2 ^ 56 + 8 * 2 ^ 64 + 8 * 2 ^ 72 + 32 * 2 ^ 80 + 32 * 2 ^ 88

/-- It at offset 64 of the scratchpad. -/
def cfgCells : List (Nat × Byte) := [(64, 16), (66, 16), (68, 32), (70, 0x0A), (71, 0x0A), (72, 8), (73, 8), (74, 32), (75, 32)]

/-- The core's array is held by its slot 0, and its next command meets that configuration. -/
def leased (s : State) : State :=
  s.setArray 0 { s.array 0 with holder := some (0, 0), nextCfg := some (BitVec.ofNat 512 cfgBytes) }

/-- MatrixCommands: the lease held, free, held by another and revoked; configurations that break no limit and one that does; operands
in the scratchpad and in global memory; a window run for mx.ld and mx.st. -/
theorem witness_matrix :
    let r := (withRegs (at0 0 + 2 * 2 ^ 52) (at0 0x1000 + 2 * 2 ^ 52) 0).setMe
      { (withRegs (at0 0 + 2 * 2 ^ 52) (at0 0x1000 + 2 * 2 ^ 52) 0).me with
        win := vset (Vector.replicate 8 0) 0 (2 ^ 63 + 0x0A), dtlb := [⟨0, true, 0, 4096, 0x3F⟩] }
    let s := leased r
    let other := r.setArray 0 { r.array 0 with holder := some (1, 0) }
    let block := stored (leased (withRegs (at0 64) 0 0)) cfgCells
    s.curSlot < 16 ∧ (s.array 0).holder = some (0, 0) ∧ (r.array 0).holder = none ∧ (r.array 0).waiting = [] ∧ (other.array 0).holder ≠ none ∧
    (other.array 0).holder ≠ some (0, 0) ∧ (other.array 0).waiting.contains (0, 0) = false ∧ s.thread.mxRevoked = false ∧
    (one { thread 0 [] with mxRevoked := true }).thread.mxRevoked = true ∧
    cfgOf (BitVec.ofNat 512 cfgBytes) = some ⟨16, 16, 32, 0x0A, 0x0A, 8, 8, 32, 32, 0, 0, 0⟩ ∧ cfgOf 0 = none ∧
    (match block.blockAt (block.scalar 1) 64 with
      | .ok a => (match block.readNow a with | some (x, _) => x == cfgBytes | none => false)
      | .error _ => false) = true ∧
    s.nextTileCfg = cfgOf (BitVec.ofNat 512 cfgBytes) ∧ (other.nextTileCfg = none) ∧
    s.operandForm (s.scalar 1) (some (32, 16)) = .ok (.scratch (scratchKey 0 0)) ∧
    s.operandForm (s.scalar 2) (some (32, 16)) = .ok (.scratch (scratchKey 0 0x1000)) ∧
    s.operandForm 64 (some (32, 16)) = .ok .global ∧ s.operandForm 8192 (some (32, 16)) = .ok .global ∧
    (match (s.translateAll 64 512 { r := true }).1 with | .ok _ => true | .error _ => false) = true ∧
    (let p := s.translateAll 8192 512 { r := true }
     match bothRanges p.1 (p.2.translateAll 4096 512 { r := true }).1 with | .ok _ => false | .error e => e.1 == 0x11 && e.2 == 4096) = true ∧
    (at0 0 + 3 * 2 ^ 52).toNat / 2 ^ 56 ≠ 0 ∧ (s.scalar 1).toNat / 2 ^ 56 ≠ 0 ∧
    (match s.place (at0 0 + 3 * 2 ^ 52).toNat s.src.seg elementWindows with | .ok _ => true | .error _ => false) = true ∧
    (match s.windowRun (at0 0 + 3 * 2 ^ 52) 256 true false with | .ok _ => true | .error _ => false) = true ∧
    (match s.windowRun (at0 0 + 3 * 2 ^ 52) 256 true true with | .ok _ => true | .error _ => false) = true ∧
    (match (leased (withRegs 0 0 0)).windowRun (at0 0 + 3 * 2 ^ 52) 256 true true with | .ok _ => false | .error _ => true) = true := by
  decide +kernel

/-- MatrixCommands: a product whose first operand is a view of 16 by 32 positions. -/
theorem witness_matrix_view :
    let s : State := { leased (stored (withRegs (at0 0) (at0 0x1000 + 2 * 2 ^ 52) 0)
      [(0, 5), (8, 2), (36, 15), (38, 31), (46, 1), (48, 1)]) with tensors := [tens] }
    s.thread.pend = .none ∧ (s.array 0).holder = some (0, 0) ∧ s.bad = [] ∧ s.soft = [] ∧ s.nextTileCfg = cfgOf (BitVec.ofNat 512 cfgBytes) ∧
    s.operandForm (s.scalar 1) (some (32, 16)) = .ok .view ∧ s.operandForm (s.scalar 2) (some (32, 16)) = .ok (.scratch (scratchKey 0 0x1000)) ∧
    readsAt s (at0 0) 64 % 2 ^ 64 = 5 ∧ s.tensor 5 = some tens ∧ (s.scalar 1).toNat % 64 = 0 ∧
    (viewOf (readsAt s (at0 0) 64) 2 1).map (fun v => v.n) = some [16, 32] := by
  decide +kernel

/-- ArrayEvents: a free array with a thread that waits, a lease at its limit, and commands in order and out of it. -/
theorem witness_array_events :
    let free := plain.setArray 0 { plain.array 0 with waiting := [(0, 0)] }
    let old := plain.setArray 0 { plain.array 0 with holder := some (0, 0), limit := 1, idle := 1 }
    let set := plain.setArray 0 { plain.array 0 with cfg := some (BitVec.ofNat 512 cfgBytes) }
    let b (n : Nat) (c : MxCmd) : Body := .mx 0 n c
    (free.cluster 0).array.holder = none ∧ (free.cluster 0).array.nextHolder = some (0, 0) ∧ clusterOf 0 = 0 ∧
    (old.cluster 0).array.holder = some (0, 0) ∧ (old.cluster 0).array.limit ≠ 0 ∧ (old.cluster 0).array.limit.toNat ≤ (old.cluster 0).array.idle ∧
    ready (flying set (arrayHome 0) (b 1 (.cfg 5))) 1 (flown set (arrayHome 0) (b 1 (.cfg 5))) = true ∧
    ready (flying set (arrayHome 0) (b 2 (.cfg 5))) 1 (flown set (arrayHome 0) (b 2 (.cfg 5))) = true ∧
    ready (flying set (arrayHome 0) (b 1 (.zero 3))) 1 (flown set (arrayHome 0) (b 1 (.zero 3))) = true ∧
    (set.cluster 0).array.done = 0 ∧ (set.cluster 0).array.cfg ≠ some 5 ∧ (set.cluster 0).array.tileCfg = cfgOf (BitVec.ofNat 512 cfgBytes) ∧
    (set.cluster 0).array.cfg = some (BitVec.ofNat 512 cfgBytes) := by decide +kernel

/-- ArrayEvents: a product of operands in scratchpad and of a view that is encoded, a tile load and a tile store in one piece. -/
theorem witness_array_effects :
    let set := plain.setArray 0 { plain.array 0 with cfg := some (BitVec.ofNat 512 cfgBytes) }
    let m : MxCmd := .mma false (.memory [⟨scratchKey 0 0, 640, .scratch, at0 0, []⟩]) (.view (some [0])) 0 3
    let run : Run := ⟨[(scratchKey 0 0, 1024)], some (2 ^ 63 + 1, false), scratchKey 0 0, 0, 0, 256, []⟩
    ([m, .ld run 3, .st run 3].all fun c =>
      ready (flying set (arrayHome 0) (.mx 0 1 c)) 1 (flown set (arrayHome 0) (.mx 0 1 c)) && c.fetched &&
        c.memory.all (fun a => a.via == .scratch && isScratch a.key)) = true ∧
    (MxCmd.cfg 5).memory = [] ∧ clusterOf 0 = 0 ∧ set.regions = [] ∧ set.moved = [] ∧ set.forwards = [] ∧ set.bad = [] ∧ set.soft = [] := by
  decide +kernel

theorem witness_array_unheld : plain.unheld (flown plain (arrayHome 0) (.mx 0 1 (.zero 3))) := unheld_of_calm rfl _

/-- BankUnits: a control word that fails and one that passes for each command; a destination and a source that pass, one that is
misaligned and one that leaves its bank; the last line of a command that is first in its bank. -/
theorem witness_bank :
    let s := withRegs (at0 0) (at0 64) 0
    ctlOk 0 (2 ^ 31) = false ∧ (List.range 9).all (fun fn => ctlOk fn (if fn = 6 then 0x20000 else 0)) = true ∧ ctlOk 2 0x100 = true ∧
    s.bankAddress (s.scalar 1) 64 = .ok (scratchKey 0 0) ∧ s.bankAddress (s.scalar 2) 64 = .ok (scratchKey 0 64) ∧
    s.bankAddress (at0 4) 64 = .error 0x13 ∧ s.bankAddress (at0 4) 4 = .ok (scratchKey 0 4) ∧ s.bankAddress (at0 8) 8 = .ok (scratchKey 0 8) ∧
    s.bankAddress 0 64 = .error 0x15 ∧ (scratchKey 0 0x3FC0 + 128 - 1) / 2 ^ 14 ≠ scratchKey 0 0x3FC0 / 2 ^ 14 ∧
    (scratchKey 0 0x3FC0 + 64 - 1) / 2 ^ 14 = scratchKey 0 0x3FC0 / 2 ^ 14 ∧ s.arrayWrites (scratchKey 0 0) 64 = false ∧
    (let b : Body := .bank 0 (scratchKey 0 0) none 0 0 2 0 false [] 1 0
     let t := flying plain 0x10000 b
     t.findWork 1 = some (flown plain 0x10000 b) ∧ t.bankFirst (flown plain 0x10000 b) (scratchKey 0 0) = true) := by decide +kernel

/-- BankUnits: a command that has a source line to read, a conversion at its last line, and the two that take every line first. -/
theorem witness_bank_lines :
    let b (fn fmt n line : Nat) (got : List VWord) : Body := .bank fn (scratchKey 0 0) (some (scratchKey 0 64)) 0 0 n fmt false got line 0
    ([b 0 0 2 1 [0], b 7 0 2 0 [0], b 6 2 2 1 [0, 0], b 7 0 2 0 [0, 0], b 8 0 1 0 [0]].all fun x =>
      decide ((flying plain 0x10000 x).findWork 1 = some (flown plain 0x10000 x)) &&
        (flying plain 0x10000 x).bankFirst (flown plain 0x10000 x) (scratchKey 0 0)) = true ∧
    (fmtOf 2).isSome = true ∧ plain.moved = [] ∧ plain.forwards = [] ∧
    (bankOsm 0xFF800000 0 [BitVec.ofNat 512 (packCodes 32 (List.replicate 16 0xFF800000))]).1 = none ∧
    (bankOsm 0x40000000 0x40400000 [BitVec.ofNat 512 (packCodes 32 (List.replicate 16 0xFF800000))]).1 ≠ none := by decide +kernel

/-- An item at a channel is due, as a test that evaluates. -/
def poised (s : State) (k : Nat) (w : Work) : Bool :=
  decide (s.findWork k = some w) && s.clear w && w.flush.isNone && (!w.release || w.deps.isEmpty) && !s.betweenLanes w && !s.holdsArrival w &&
    (match channelHomed w.home with | some c => s.channelAwake c | none => true)

theorem due_of_poised {s : State} {k : Nat} {w : Work} (h : poised s k w = true) (hl : w.link = .clean := by rfl) : s.due k w := by
  simp only [poised, Bool.and_eq_true, decide_eq_true_eq, Option.isNone_iff_eq_none, Bool.or_eq_true, Bool.not_eq_true',
    List.isEmpty_iff] at h
  obtain ⟨⟨⟨⟨⟨⟨a, b⟩, c⟩, d⟩, e⟩, f⟩, g⟩ := h
  exact ⟨⟨a, b, c, fun hr => d.resolve_left (by simp [hr]), fun x hx => by simpa [hx] using g, e, f⟩, hl⟩

/-- A share at a channel that is open and holds nothing. -/
def share (chan : Nat) : Share := ⟨chan, .opened, [], 0, 0, 0, 0, 0, 0, 0, 0, [], [], false, 0⟩

/-- An ordered region over elements 0 to 3 of that tensor, with one share. -/
def reg (x : Share) : Region :=
  ⟨3, { handle := 5, first := 0, count := 4, spill := [], splen := 0, quota := 2, ordered := true, phrase := ⟨[], 0, [], 0, 0⟩, trans := [], addr := 0 }, [x], 0⟩

/-- UpdateStreams: an open region and others, emissions that are right, wrong and held, a close's stages; and at a channel a pair, a
flush and a close, lost and taken; an application and a close that end. -/
theorem witness_streams :
    let s : State := { withRegs 3 0 3 with tensors := [tens], regions := [reg (share 0)] }
    let t (x : Share) : State := { s with regions := [reg x] }
    let pair : Body := .pair 3 0 1 7 0 0
    let flush : Body := .flush 3 0 1 (.s 5)
    let close : Body := .close 3 0
    let h := channelHome 0
    s.region 3 = some (reg (share 0)) ∧ s.region 4 = none ∧ plain.region 0 = none ∧ s.tensor 5 = some tens ∧
    bits ((s.scalar 2).toNat) 63 48 = 0 ∧ bits (2 ^ 63) 63 48 ≠ 0 ∧ tens.channel 0 = tens.channel 3 ∧
    (t { share (tens.channel 0) with full := true, state := .applying }).emitterWaits (tens.channel 0) = true ∧
    s.emitterWaits (tens.channel 0) = false ∧ s.regionFor 0 3 = some (reg (share 0)) ∧ s.regionFor 0 4 = none ∧ plain.findWork 1 = none ∧ (flying plain 0 close).findWork 1 ≠ none ∧
    poised (flying plain h pair) 1 (flown plain h pair) = true ∧ plain.region 3 = none ∧
    poised (flying s h pair) 1 (flown s h pair) = true ∧ (reg (share 0)).share 0 = some (share 0) ∧ (reg (share 0)).desc.ordered = true ∧
    (share 0).bins.length < (reg (share 0)).desc.quota ∧
    poised (flying s h flush) 1 (flown s h flush) = true ∧ (share 0).pending = false ∧ { share 0 with bins := [⟨1, 7, 0, 0, 1, false, false⟩] }.pending = true ∧
    (flying s h pair).ahead (flown s h pair) (reg (share 0)) (share 0) = false ∧
    (flying s h flush).ahead (flown s h flush) (reg (share 0)) (share 0) = false ∧
    (flying s h close).ahead (flown s h close) (reg (share 0)) (share 0) = false ∧
    ((flying s h flush).work.all (fun y => y.id == 1)) = true ∧ (share 0).early = [] ∧ (share 0).flushed + 1 < 2 ∧
    poised (flying s h close) 1 (flown s h close) = true ∧ (flown s h close).arrived = none ∧
    (t { share 0 with state := .applying }).region 3 = some (reg { share 0 with state := .applying }) ∧
    (t { share 0 with state := .closing }).region 3 = some (reg { share 0 with state := .closing }) ∧
    (reg (share 0)).shares = [share 0] ∧ (share 0).chan = 0 ∧ tens.rawPte = 0 ∧ familyOf tens.desc.fmt = none ∧ (fmtOf tens.desc.fmt).isSome = true ∧
    (let x := { share 0 with state := .applying, bins := [⟨1, 7, 0, 0, 1, false, false⟩] }
     (t x).region 3 = some (reg x) ∧ (reg x).share 0 = some x ∧ x.log = 0) := by decide +kernel

/-- Copies: a descriptor that is right (64 bytes from offset 0 to 0x400) and one that is wrong, of each form; a tag that is set and one that
is clear; the phases of a copy. -/
theorem witness_copies :
    let base := withRegs (at0 64) 0 0
    let s := base
    let zero := base
    let noTag := s.setMe { s.me with tags := 0 }
    let plan (x : Nat) : CopyPlan := planLinear x
    let src := (at0 0).toNat
    let x := src + ((at0 0x400).toNat) * 2 ^ 64 + 64 * 2 ^ 128
    let y := src + ((at0 0x400).toNat) * 2 ^ 64 + 64 * 2 ^ 128 + 2 ^ 160
    let job (p : Nat) : CopyJob := ⟨.linear, 0, 1, [], p, 0, 0, none, 64, 0, scratchKey 0 0, none, 5, 0, 0, false, 0, 0, 0, []⟩
    let w (j : CopyJob) := flown plain 0x20000 (.copy j)
    let right (s : State) (q : CopyPlan) : Bool := q.reserved && q.len != 0 && q.rows != 0 && decide (q.act ≤ 3) && s.sideOk q.src q.sstride q.len q.rows &&
      s.sideOk q.dst q.dstride q.len q.rows && (s.actionTarget q.act q.atgt).isSome
    (match zero.blockAt (zero.scalar 1) 64 with
      | .ok a => (match zero.readNow a with | some (x, _) => x == 0 | none => false)
      | .error _ => false) = true ∧
    right plain (plan 0) = false ∧ right plain (plan x) = true ∧ right plain (planStrided y) = true ∧ right plain (planStrided 0) = false ∧
    plain.blockAt 0 64 = .error 0x15 ∧ s.tagSet 5 = true ∧ noTag.tagSet 5 = false ∧
    ([job 0, { job 0 with kind := .tensor, moved := true }, job 1, { job 1 with act := 3 }, job 2, job 3].all fun j =>
      let f := flying plain 0x20000 (.copy j)
      decide (f.findWork 1 = some (w j)) && f.clear (w j) && !f.halted 0 && (f.before (w j)).isEmpty && decide (1 < f.nextId)) = true := by
  decide +kernel

/-- Copies: a copy between tensors whose views have as many positions, one whose views differ, and one with a reserved byte set. -/
theorem witness_copy_tensor :
    let s : State := { stored (withRegs (at0 128) 0 0) [(0, 5), (8, 2), (36, 1), (38, 1), (46, 1), (48, 1), (64, 6), (72, 1), (100, 3), (110, 1),
        (135, 0xF0), (136, 64), (143, 0xF0), (192, 6), (200, 1), (238, 1)] with
      tensors := [tens, { tens with handle := 6, desc := { tens.desc with dims := [4] } }] }
    let x := blockOf s (at0 128)
    let view (va : Word) (rank : Nat) : Option (List Nat) := (viewOf (readsAt s va 64) rank 1).map (fun v => v.handle :: v.n)
    s.bad = [] ∧ s.soft = [] ∧ s.thread.pend = .none ∧ byteField x 7 0 = (at0 0).toNat ∧ byteField x 15 8 = (at0 64).toNat ∧ byteField x 23 17 = 0 ∧
    byteField x 63 40 = 0 ∧ byteField x 16 16 = 0 ∧ byteField x 31 24 = 0 ∧ s.actionTarget 0 0 = some none ∧ s.rowThree (at0 0) rawWindows = none ∧
    view (at0 0) 2 = some [5, 2, 2] ∧ view (at0 64) 1 = some [6, 4] ∧ view (at0 192) 1 = some [6, 1] ∧
    byteField (blockOf s (at0 192)) 63 40 ≠ 0 ∧ s.tagSet 5 = true ∧ s.actionTarget 0 1 = none := by
  decide +kernel

/-- Copies: a granule of 64 bytes between two places of a scratchpad, and one of a byte. -/
theorem witness_copy_granule :
    let job (n : Nat) : CopyJob := ⟨.linear, 0, 1, [⟨[(scratchKey 0 0, n, .scratch)], [(scratchKey 0 0x400, n, .scratch)], at0 0, at0 0x400⟩], 0, 0, 0, none, n, 0,
      scratchKey 0 0, none, 5, 0, 0, false, 0, 0, 0, []⟩
    ([1, 64].all fun n =>
      let f := flying plain 0x20000 (.copy (job n))
      let w := flown plain 0x20000 (.copy (job n))
      decide (f.findWork 1 = some w) && f.clear w && !f.halted 0 && (f.before w).isEmpty && f.reachable 0 (scratchKey 0 0) &&
        f.reachable 0 (scratchKey 0 0x400) && !f.badAt (scratchKey 0 0) n) = true ∧ plain.forwards = [] ∧ plain.moved = [] ∧
    (plain.cluster 0).sectors = [] := by
  decide +kernel

theorem witness_copy_calm (job : CopyJob) (key : Nat) : (flying plain 0x20000 (.copy job)).sectorBusy 0 key = false := by
  simp only [State.sectorBusy, State.writeBacksAt]
  rfl

theorem witness_copy_unheld (w : Work) : plain.unheld w := unheld_of_calm rfl w

/-- TagsAndTimelines: tags that are set and clear, timelines that are there and not, reached and not, and each state of a wait. -/
theorem witness_tags :
    let s := withRegs 1 3 0
    let clear := s.setMe { s.me with tags := 2 }
    s.curSlot < 16 ∧ s.me.tags &&& s.scalar 1 = s.scalar 1 ∧ clear.me.tags &&& clear.scalar 1 ≠ clear.scalar 1 ∧
    clear.me.tags &&& 1 = 0 ∧ clear.scalar 2 ≠ 0 ∧ clear.me.tags &&& clear.scalar 2 ≠ 0 ∧
    s.timeline 0 0 2048 = some 0 ∧ s.timeline 0 0 8192 = none ∧ s.timeline 0 1 127 = some 0 ∧ s.timeline 0 1 128 = none ∧
    s.timeline 0 2 0 = none ∧ s.timeline 0 3 0 = none ∧ s.timeline 0 4 255 = none ∧ ({ s with regions := [reg (share 0)] } : State).timeline 0 2 3 = some 0 ∧
    (0 : Word).toNat ≤ 0 ∧ 0 < (s.scalar 2).toNat ∧ (one { thread 0 [] with pend := .wait 77 [0, 1, 0] }).thread.pend = .wait 77 [0, 1, 0] ∧
    (one { thread 0 [] with pend := .elapsed }).thread.pend = .elapsed ∧ s.me.tags &&& s.scalar 2 ≠ 0 ∧ s.scalar 0 = 0 := by
  decide +kernel

/-- A member of graph 1, at its stage 0. -/
def mem1 : Member := ⟨1, 0, 0, 0x2000, 0x2000, false⟩

/-- An item of that stage. -/
def item1 : Item := ⟨1, 0, 10, 11, none, none, 0, 3, false, false, false⟩

/-- A graph with one stage on core 0 and one edge from it to itself, whose tensor of live items counts one. -/
def graph1 : Graph :=
  { num := 1, owner := 0, stages := [⟨0x2000, [0], 4, 0, 1, 0⟩], edges := [(0, 0), (3, 0)], nodes := [], donef := none, notify := Vector.replicate 64 0,
    live := 1, after := none, drains := 0, asid := 0, root := 0 }

/-- A core with the deque of that stage, and slot 0 a member of it; a die with that graph. -/
def graphed (t : Thread) (d : Deque) : State :=
  let s := one t
  let s := s.setMe { s.me with deques := [d] }
  s.setDie 0 { s.die 0 with graphs := [graph1] }

/-- WorkItems: threads of no graph, of one that has ended, with an item and without; a deque that holds items and an empty one; edges
that leave the stage, leave another and are not there; a record's address that passes and one that does not. -/
theorem witness_work_items :
    let t : Thread := { thread 0x2000 [0, at0 64, 2, 1] with member := some mem1 }
    let s := graphed t ⟨1, 0, 4, [item1]⟩
    let e := graphed t ⟨1, 0, 4, []⟩
    let u := graphed { t with item := some item1 } ⟨1, 0, 4, []⟩
    plain.thread.member = none ∧ s.thread.member = some mem1 ∧ s.thread.item = none ∧ u.thread.item = some item1 ∧
    (graphed { t with member := some { mem1 with ended := true } } ⟨1, 0, 4, []⟩).thread.member = some { mem1 with ended := true } ∧
    mem1.ended = false ∧ s.thread.heldItem = none ∧ s.me.deque 1 0 = some ⟨1, 0, 4, [item1]⟩ ∧ e.me.deque 1 0 = some ⟨1, 0, 4, []⟩ ∧
    ((s.die 0).dbm.toList.zipIdx).find? (fun q => dbmMatches q.1 item1 s.curCore) = none ∧ item1.record = none ∧ s.me.input = [] ∧
    u.graphOf 1 = some graph1 ∧ graph1.edges[0]? = some (mem1.stage, 0) ∧ graph1.edges[1]? = some (3, 0) ∧ 3 ≠ mem1.stage ∧ graph1.edges[2]? = none ∧
    (u.emitTarget 1 0 [0]).1 = 0 ∧ u.itemsToward 0 0 < u.bufCap ∧ ({ u with bufCap := 0 } : State).bufCap ≤ u.itemsToward 0 0 ∧
    u.outstanding 0 0 = false ∧ (flying u 0 (.ret (.s 5) 0 none 0 [])).outstanding 0 0 = true ∧ u.src.member = some mem1 ∧ u.src.item = some item1 ∧
    (match (u.recordAt 0).1 with | .ok _ => false | .error _ => true) = true ∧
    (match ((u.setMe { u.me with dtlb := [⟨0, true, 0, 4096, 0x3F⟩] }).recordAt 64).1 with | .ok _ => true | .error _ => false) = true ∧
    (2 : Word).getLsbD 0 = false ∧ (maskRegs 2).length ≤ 4 ∧ (1 : Word).getLsbD 0 = true ∧ 4 < (maskRegs 0x3E).length ∧
    ((u.nextPc - mem1.code).toInt / 4).natAbs < 2 ^ 27 := by decide +kernel

/-- Futures: an address that passes and one that fails; every state of the thread; operations at the home on a future that is empty,
that has a waiter, and that is resolved. -/
theorem witness_futures :
    let a : Access := ⟨64, 16, .home, 64, []⟩
    let s := (withRegs 64 64 64).setMe { (withRegs 64 64 64).me with dtlb := [⟨0, true, 0, 4096, 0x3F⟩] }
    let full : State := { s with mem := [(64, 2), (72, 7)] }
    (match (s.checkAddr 64 16 rawWindows true { r := true, w := true } true).1 with | .ok _ => true | .error _ => false) = true ∧
    (match (s.checkAddr 8 16 rawWindows true { r := true, w := true } true).1 with | .ok _ => false | .error _ => true) = true ∧
    (match (s.recordAt 64).1 with | .ok _ => true | .error _ => false) = true ∧ (match (s.recordAt 8).1 with | .ok _ => false | .error _ => true) = true ∧
    s.acquiring = false ∧ s.releaseDeps 3 = [] ∧ s.releaseDeps 2 = [] ∧ s.sharesFree none = true ∧ s.sharesFree (some 5) = true ∧
    s.thread.pend = .none ∧ a.n = 16 ∧ s.regions = [] ∧ (s.cluster 0).sectors = [] ∧ s.sectorBusy 0 64 = false ∧
    ([0, 2, 3, 4, 5].all fun op =>
      let b : Body := .fut op a .none 7 none
      poised (flying s (channelHome (channelOf 64)) b) 1 (flown s (channelHome (channelOf 64)) b)) = true ∧
    s.readNat 64 16 % 4 < 2 ∧ bits (s.readNat 64 16) 13 2 = 0 ∧ 2 ≤ full.readNat 64 16 % 4 := by decide +kernel

/-- GraphInstructions: an abort and a launch whose tuple can be read and one whose cannot; a lease that is refused and one that is not; a
run's descriptor that is right, one that is not and a lease that has none left; runs that are outstanding. -/
theorem witness_graph_instructions :
    let base := withRegs 9 0x0000000000000001 (at0 64)
    let s := base.setMe { base.me with dtlb := [⟨0, true, 0, 4096, 0x3F⟩] }
    let l : PhraseLease := ⟨9, 0, 0, 2, 0, 0, false⟩
    let p : State := { s with phraseLeases := [l] }
    s.privileged = true ∧ plain.scalar 2 = 0 ∧ s.scalar 2 ≠ 0 ∧ s.thread.pend = .none ∧
    (match (s.checkAddr 64 8 rawWindows true { r := true } false).1 with | .ok _ => true | .error _ => false) = true ∧
    (match (s.checkAddr 72 8 rawWindows true { r := true } false).1 with | .ok m => (s.readNow m).isSome | .error _ => false) = true ∧
    (match (s.checkAddr 3 8 rawWindows true { r := true } false).1 with | .ok _ => false | .error _ => true) = true ∧
    (256 ≤ (256 : Word).toNat ∧ (255 : Word).toNat < 256 ∧ (1 : Word).toNat < 2 ^ 16 ∧ (1 : Word) ≠ 0 ∧ s.deadChannels.contains 1 = false ∧
      s.enteringPower 1 = false) ∧
    p.phraseLease 9 = some l ∧ p.phraseLease 1 = none ∧ l.core = s.curCore ∧ l.ended = false ∧ l.accepted < l.expiry ∧
    (⟨9, 0, 0, 0, 0, 0, false⟩ : PhraseLease).expiry ≤ (⟨9, 0, 0, 0, 0, 0, false⟩ : PhraseLease).accepted ∧ l.accepted ≤ l.done ∧
    (⟨9, 0, 0, 2, 1, 0, false⟩ : PhraseLease).done < (⟨9, 0, 0, 2, 1, 0, false⟩ : PhraseLease).accepted ∧
    (match s.blockAt (at0 64) 64 with | .ok a => (s.readNow a).isSome | .error _ => false) = true := by decide +kernel

/-- GraphInstructions: the descriptor of a run that is right: sixteen FP32 elements from key 0 on, in place; its phrase block doubles
each; its ranges are in HBM. -/
theorem witness_phrase_run :
    let d : Nat := (at0 128).toNat * 2 ^ 192 + 16 * 2 ^ 256 + 2 ^ 288
    let e : Nat := 4 + 2 ^ 8 + 0x70306810 * 2 ^ 32
    byteField d 63 37 = 0 ∧ byteField d 35 32 = 16 ∧ runFormat (byteField d 36 36) = true ∧ byteField d 31 24 = (at0 128).toNat ∧
    (match plain.blockAt (BitVec.ofNat 64 (byteField d 31 24)) 64 with | .ok _ => true | .error _ => false) = true ∧
    (match phraseOf e with | some q => q.h1 == 0 && q.h2 == 0 | none => false) = true ∧ byteField d 7 0 = 0 ∧ isHbm 0 = true ∧ runFormat 0xFF = false ∧
    (match ((plain.setMe { plain.me with dtlb := [⟨0, true, 0, 4096, 0x3F⟩] }).translateEach 64 [(0, { w := true })]).1 with
      | .ok l => l.all (fun g => g.all (fun a => isHbm a.key)) && !l.isEmpty
      | .error _ => false) = true := by decide +kernel

/-- WorkItems: an item that was stolen, one that resumes a record, and ones that a dispatch register matches and stops or traps; a thread
of an ended graph, with an item and without. -/
theorem witness_takes :
    let t : Thread := { thread 0x2000 [0, at0 64, 2, 1] with member := some mem1 }
    let gone : Thread := { t with member := some { mem1 with ended := true } }
    let s := graphed { t with stolen := some item1 } ⟨1, 0, 4, []⟩
    let r := graphed t ⟨1, 0, 4, [{ item1 with record := some 64 }]⟩
    let m (d : Word) : State := (graphed t ⟨1, 0, 4, [item1]⟩).setDie 0 { (graphed t ⟨1, 0, 4, [item1]⟩).die 0 with dbm := vset (Vector.replicate 4 0) 2 d }
    let hit (s : State) : Option (Word × Nat) := ((s.die 0).dbm.toList.zipIdx).find? (fun q => dbmMatches q.1 item1 s.curCore)
    s.thread.stolen = some item1 ∧ s.thread.item = none ∧ s.thread.heldItem = none ∧ r.me.deque 1 0 = some ⟨1, 0, 4, [{ item1 with record := some 64 }]⟩ ∧
    r.regions = [] ∧ r.sectorBusy 0 64 = false ∧ (r.cluster 0).sector 64 = none ∧
    hit (m (2 ^ 63 + 2 ^ 62)) = some (2 ^ 63 + 2 ^ 62, 2) ∧ hit (m (2 ^ 63)) = some (2 ^ 63, 2) ∧ ((2 ^ 63 + 2 ^ 62 : Word)).getLsbD 62 = true ∧
    ((2 ^ 63 : Word)).getLsbD 62 = false ∧ hit (m (2 ^ 63 + 1)) = none ∧
    (one { gone with item := some item1 }).thread.item = some item1 ∧ (one gone).thread.item = none ∧
    (one gone).thread.member = some { mem1 with ended := true } := by decide +kernel

/-- FuturePerformed: a registration at a future that is empty, one with as many waiters as it can count, and a resolved one. -/
theorem witness_registration :
    let a : Access := ⟨64, 16, .home, 64, []⟩
    let r : Access := ⟨128, 64, .home, 128, []⟩
    let b : Body := .fut 1 a .none 0 (some r)
    let h := channelHome (channelOf 64)
    let s (l : List Host.Cell) : State := { flying plain h b with mem := l }
    ([[], [(64, 0xFD), (65, 0x3F)], [(64, 2)], [(64, 3)]].all fun l => poised (s l) 1 (flown plain h b)) = true ∧
    a.n = 16 ∧ r.via ≠ .scratch ∧ (s []).sectorBusy 0 184 = false ∧ (plain.cluster 0).sectors = [] ∧ plain.bad = [] ∧ plain.soft = [] ∧
    (s []).readNat 64 16 % 4 < 2 ∧ bits ((s [(64, 0xFD), (65, 0x3F)]).readNat 64 16) 13 2 = 4095 ∧
    (s [(64, 0xFD), (65, 0x3F)]).readNat 64 16 % 4 < 2 ∧ 2 ≤ (s [(64, 2)]).readNat 64 16 % 4 ∧ plain.fwd 184 + 8 ≤ 192 ∧ 64 + 16 ≤ plain.fwd 184 := by
  decide +kernel

/-- GraphInstructions: a channel that enters a lower state; a phrase block's address that fails, ranges that break a limit, leave HBM or
have no translation, and a block that is no phrase. -/
theorem witness_phrase_limits :
    let s := plain.setMe { plain.me with dtlb := [⟨0, true, 0, 4096, 0x3F⟩, ⟨0, true, 4096, 4096, 2 * 2 ^ 56 + 0x3F⟩] }
    ({ plain with entering := [⟨1, .powerDown, ⟨0, 1, 0, 0⟩, false⟩] } : State).enteringPower 1 = true ∧
    plain.blockAt 0 64 = .error 0x15 ∧ (s.leavesHbm 64 [0]).1 = false ∧ (s.leavesHbm 64 [4096]).1 = true ∧ byteField (2 ^ 384) 63 48 ≠ 0 ∧ 1 % 4 ≠ 0 ∧ phraseOf 0 = none ∧
    (match (plain.translateEach 64 [(0, { w := true })]).1 with | .ok _ => false | .error _ => true) = true := by decide +kernel

/-- The die's lexicon has slots 0 to 7 assigned, and its slot 0 is as given. -/
def lexed (s : State) (x : LexSlot) : State :=
  { s.setDie 0 { s.die 0 with lexicon := [(0, x)] } with partitions := [(0, { lexNum := vset (Vector.replicate 2 0) 0 8 })] }

/-- Lexicon: slots that are assigned and not; the values that select and those that do not; each command at a slot in the states that
its clauses name. -/
theorem witness_lexicon :
    let run : LexSlot := { state := .run }
    let full : LexSlot := { state := .run, drafts := List.replicate 8 7 }
    let s := lexed (withRegs 7 1 2) run
    let f (x : LexSlot) (c : LexCmd) : Bool := poised (flying (lexed plain x) (lexHome 0) (.lex 0 c)) 1 (flown (lexed plain x) (lexHome 0) (.lex 0 c))
    (s.partAt 0).slotAssigned 7 = true ∧ (s.partAt 0).slotAssigned 8 = false ∧ (s.partAt 0).slotAssigned 4096 = false ∧ s.thread.pend = .none ∧
    (one { thread 0 [] with pend := .performed 5 64 }).thread.pend = .performed 5 64 ∧
    (1 : Word).toNat ≤ 1 ∧ 1 < (2 : Word).toNat ∧ (0xFFFF : Word).toNat < 2 ^ 16 ∧ 2 ^ 16 ≤ (0x10000 : Word).toNat ∧
    (f run (.reset true) && f run .release && f run .next && f run (.st 0) && f run (.draft 5) && f full (.draft 5) && f {} (.draft 5) &&
      f {} (.cmt 5) && f {} (.conf 1) && f {} (.bud 0 1) && f run (.bud 0 1) && f run (.bud 1 (2 ^ 40 + 1)) && f run (.cmt 5) && f run (.arm 0 ⟨[], 0, 0, 0, [], 0⟩)) = true ∧
    (lexed plain run).lexSlot 0 = run ∧ run.bad = false ∧ run.soft = false ∧ run.drafts.length < 8 ∧ 8 ≤ full.drafts.length ∧
    ({} : LexSlot).state ≠ .run ∧ run.force = [] ∧ run.entries = Vector.replicate 8 none ∧ run.b0 = {} ∧ run.b1 = {} := by decide +kernel

/-- ControlRegisters: registers of each kind, named and not, in a thread that has PRIV and one that has not; values with a privileged bit
and without; a read of cr.oob that waits for a view write. -/
theorem witness_control_registers :
    let view : State := flying plain 0 (.handle (.st ⟨5, true, 0, [], [], [], [], []⟩ ⟨[], none, 0, 0, 0, 0, []⟩ 0) none)
    plain.snap = none ∧ plain.privileged = false ∧ super.privileged = true ∧ crAssigned 0x007 = false ∧ crAssigned 0x011 = true ∧ crAssigned 0x0B7 = true ∧
    plain.viewWrites = false ∧ view.viewWrites = true ∧ (crFields 0x0A0).rwp ≠ 0 ∧ crFields 0x000 = {} ∧ crAssigned 0x000 = true ∧
    (crFields 0x005).rwp &&& (4 : Word).toNat ≠ 0 ∧ (crFields 0x005).rwp &&& (3 : Word).toNat = 0 ∧ (crFields 0x011).rwp = 0 ∧
    (crFields 0x011).w1c ≠ 0 ∧ (crFields 0x0B4).w1c ≠ 0 ∧ plain.bankFlags = false ∧
    (flying plain 0x10000 (.bank 7 (scratchKey 0 0) none 0 0 1 0 false [] 0 0)).bankFlags = true ∧ plain.halting = false ∧
    ({ plain with partitions := [(0, { halted := true })] } : State).halting = true ∧ (flying plain 0 (.debug true)).halting = true ∧ byteSum 0x0808080808080808 ≤ 256 ∧
    256 < byteSum 0x2020202020202021 ∧ bits 4095 11 0 + bits (2 ^ 16) 28 16 ≤ 4096 ∧ 4096 < bits 4095 11 0 + bits (2 ^ 17) 28 16 := by decide +kernel

/-- CountersAndSlots: selectors at the ends of their ranges; a core that is named well, one that is not, and its own; a quiescent core and
one that is not; slots in the states that each operation names. -/
theorem witness_counters :
    let s := withRegs 0 1 0
    let t : State := s.setThreadAt 1 0 { thread 0x3000 [] with slot := .halted }
    (8 : BitVec 6).toNat = 8 ∧ (11 : BitVec 6).toNat = 11 ∧ s.privileged = true ∧ (7 : Word).toNat % 256 < 8 ∧ 8 ≤ (8 : Word).toNat % 256 ∧
    (4095 : Word).toNat < 2 ^ 12 ∧ 2 ^ 12 ≤ (4096 : Word).toNat ∧ bits 1 15 11 = 0 ∧ bits 1 63 32 = 0 ∧ s.present 1 = true ∧
    bits 1 10 0 ≠ s.curCore ∧ bits 1 31 16 = 0 ∧ bits 0 10 0 = s.curCore ∧ s.quiescent 1 = true ∧ s.quiescent 0 = false ∧
    bits 0x800 15 11 ≠ 0 ∧ bits 0x10001 31 16 ≠ 0 ∧ (bits 0x10001 31 16).testBit 0 = true ∧ 0 < contexts (s.core 1).mode ∧
    ((t.core 1).thread 0).slot = .halted ∧ (((s.setThreadAt 1 0 (thread 0 [])).core 1).thread 0).slot = .ready ∧
    (((s.setThreadAt 1 0 (thread 0 [])).core 1).thread 0).pend = .none ∧
    (((s.setThreadAt 1 0 { thread 0 [] with slot := .stopped, mark := .byControl }).core 1).thread 0).slot = .stopped ∧
    (List.range 16).all (fun k => ((s.core 1).thread k).withdrawn.isEmpty) = true ∧
    (let r := s.setThreadAt 1 0 (thread 0 [])
     let f := r.addWork { r.item 0 [] false (.ret (.s 5) 0 none 0 []) with core := 1 }
     r.outstanding 1 0 = false ∧ f.outstanding 1 0 = true ∧ (f.work.all (fun w => w.arrived.isNone)) = true ∧ (r.threadAt 1 0).pendTrap = none ∧
       (r.threadAt 1 0).stopping = none) := by decide +kernel

/-- TrapEntry, TrapInstructions: a thread with a handler, one without, one with a trap unread; a result outstanding and none; a saved
address that is aligned and one that is not; breakpoints enabled and not. -/
theorem witness_traps :
    let t : Thread := { thread 0x1000 [] with tvec := 0x8000 }
    let s := one t
    let out := flying s 0 (.ret (.s 5) 0 none 0 [])
    s.curSlot < 16 ∧ s.thread.popped = [] ∧ s.outstanding 0 0 = false ∧ out.outstanding 0 0 = true ∧ s.thread.unread = false ∧ s.thread.tvec ≠ 0 ∧
    plain.thread.tvec = 0 ∧ (one { t with unread := true }).thread.unread = true ∧ 0x13 % 128 ≠ 0 ∧ (s.partAt 0).brken = false ∧
    (({ s with partitions := [(0, { brken := true })] } : State).partAt 0).brken = true ∧
    s.src.tpc.toNat % 4 = 0 ∧ (one { t with tpc := 2 }).src.tpc.toNat % 4 ≠ 0 ∧ super.privileged = true ∧ s.privileged = false ∧
    s.inPair = false ∧ s.thread.latch = [] ∧ s.thread.pendTrap = none ∧ s.thread.stopping = none ∧ s.work.all (fun w => !w.waitsOf 0 0) = true := by decide +kernel

/-- QueueOperands: a queue that is empty, one of one entry and of two, an entry that waits for a result; room, and none. -/
theorem witness_queues :
    let e : QEntry := ⟨1, 0, 5⟩
    let q (l : List QEntry) := plain.setMe { plain.me with queues := vset plain.me.queues 0 l }
    let room (s : State) : Bool := decide (s.me.occupied 0 < s.me.cap 0) &&
      (decide (s.me.occupied 0 < s.me.qmin' 0) || decide (1 ≤ s.me.poolRoom s.me.occupied))
    let held := plain.setThreadAt 0 1 { thread 0 [] with pend := .wait 70 [1], popped := [(0, e)] }
    (32 : Opd).isQueue = true ∧ queueOf 32 = 0 ∧ plain.snap = none ∧ plain.inPair = false ∧ plain.me.queue 0 = [] ∧ (q [e]).me.queue 0 = [e] ∧
    (q [e, e]).me.queue 0 = [e, e] ∧ e.missing = 0 ∧ (q [{ e with missing := 1 }]).me.queue 0 = [{ e with missing := 1 }] ∧
    room plain = true ∧ room (q (List.replicate 32 e)) = false ∧ crAssigned 0x002 = true ∧
    (q [e]).me.claimed 0 = false ∧ held.me.claimed 0 = true ∧ held.snap = none ∧ plain.me.queuesReady [⟨.scalar, .dst, 32⟩] = true := by decide +kernel

/-- GraphEvents: an abort of a graph that is there and of one that is not; a graph that has drained, ending or going on; items, steals and
probes at a core that holds the stage's deque and one that does not. -/
theorem witness_graph_events :
    let t : Thread := { thread 0x2000 [] with member := some mem1, slot := .parked, pend := .wait 80 [] }
    let s := graphed t ⟨1, 0, 4, [item1]⟩
    let e := graphed t ⟨1, 0, 4, []⟩
    let two := graphed t ⟨1, 0, 4, [item1, item1]⟩
    let f (u : State) (home : Nat) (b : Body) : Bool := ready (flying u home b) 1 (flown u home b)
    let abort (n : Nat) : Body := .launch 0 0 (BitVec.ofNat 64 n) 0 0 0 true (.s 5)
    let launch : Body := .launch 0 3 0 0 0 0 true (.s 5)
    let round : StealRound := ⟨1, 0, 0, 0, false, 0, 0⟩
    (f s (engineHome 0) (abort 1) && f s (engineHome 0) (abort 2) && f s (engineHome 0) launch) = true ∧ (3 : Word).toNat % 64 ≠ 0 ∧
    s.sharesFree none = true ∧ s.graph 0 1 = some graph1 ∧ graph1.owner = s.partOf 0 ∧ s.graph 0 2 = none ∧
    ({ s with partitionOf := [(0, 1)] } : State).partOf 0 ≠ graph1.owner ∧ s.halted 0 = false ∧
    (e.halted 0 || two.halted 0 || plain.halted 0) = false ∧
    graph1.stages[0]? = some ⟨0x2000, [0], 4, 0, 1, 0⟩ ∧ (⟨0x2000, [0], 4, 0, 1, 0⟩ : Stage).places[0]? = some 0 ∧
    (f e (mailHome 0) (.item 0 item1) && f plain (mailHome 0) (.item 0 item1)) = true ∧ (plain.core 0).deque 1 0 = none ∧ plain.graphOf 1 = none ∧
    (e.core 0).deque 1 0 = some ⟨1, 0, 4, []⟩ ∧ (e.core 0).input = [] ∧ (e.core 0).joins ⟨1, 0, 4, []⟩ = true ∧
    (e.core 0).joins ⟨1, 0, 0, []⟩ = false ∧ e.coreAt 0 = 0 ∧
    (f two (stealHome 0) (.steal 0 1 0) && f e (stealHome 0) (.steal 0 1 0) && f plain (stealHome 0) (.steal 0 1 0)) = true ∧
    (two.core 0).deque 1 0 = some ⟨1, 0, 4, [item1] ++ [item1]⟩ ∧ (two.core 0).input = [] ∧ (two.core 0).parkedTake 1 0 = true ∧ (s.core 0).deque 1 0 = some ⟨1, 0, 4, [item1]⟩ ∧ (e.core 0).input = [] ∧
    ((e.core 0).thread 0).takes 1 0 = true ∧ ((plain.core 0).thread 0).takes 1 0 = false ∧
    (flying e (stealHome 0) (.stolen 1 0 (some item1))).findWork 1 = some (flown e (stealHome 0) (.stolen 1 0 (some item1))) ∧ (e.core 0).steals = [] ∧
    round.busy = false ∧ round.until_ ≤ 0 ∧ (e.core 0).parkedTake 1 0 = true ∧ (plain.core 0).parkedTake 1 0 = false ∧
    ((e.setDie 0 { e.die 0 with graphs := [{ graph1 with stages := [⟨0x2000, [0, 1], 4, 0, 1, 0⟩] }] }).victims 0 1 0) = [1] ∧
    0 + 4096 ≤ ({ e.core 0 with clock := 4096 } : Core).clock ∧
    (f e (probeHome 0) (.probe 0 0 0) && f e (probeHome 0) (.emergency 0 0)) = true ∧ item1.origin = 0 ∧
    (e.setMe { e.me with input := [item1] }).me.deques = [⟨1, 0, 4, []⟩] ∧ ({ item1 with edge := some 0 } : Item).sentBy 0 = true ∧ (e.core 0).reserved < 4 ∧
    4 ≤ ({ e.core 0 with deques := [⟨1, 0, 4, List.replicate 4 { item1 with reserve := true }⟩] } : Core).reserved := by decide +kernel

/-- GraphEvents: a round with a victim left and one without, one that waits; tokens that go on, that return, and that meet no parked emission. -/
theorem witness_rounds :
    let t : Thread := { thread 0x2000 [] with member := some mem1, slot := .parked, pend := .wait 80 [] }
    let e := graphed t ⟨1, 0, 4, []⟩
    let three := e.setDie 0 { e.die 0 with graphs := [{ graph1 with stages := [⟨0x2000, [0, 1, 2], 4, 0, 1, 0⟩] }] }
    let r : StealRound := ⟨1, 0, 0, 0, true, 0, 0⟩
    let s := three.setMe { three.me with steals := [r] }
    let b : Body := .stolen 1 0 none
    let probe (f : Nat) : Body := .probe 0 0 f
    let five := plain.setDie 0 { plain.die 0 with graphs := [{ graph1 with stages := [⟨0x2000, [5], 4, 0, 1, 0⟩] }] }
    let q : Nat × Nat × Nat × Nat := (3, 0, 1, 0)
    let p := five.setMe { five.me with emitParked := [q] }
    let away := p.setCore 1 { p.core 1 with emitParked := [q] }
    (flying s (stealHome 0) b).findWork 1 = some (flown s (stealHome 0) b) ∧ (s.core 0).steals = [r] ∧ (s.core 0).parkedTake 1 0 = true ∧
    1 < (flying s (stealHome 0) b).nextId ∧ (s.victims 0 1 0)[0 + 1]? = some 2 ∧ (s.victims 0 1 0)[1 + 1]? = none ∧
    (p.core 0).emitParked = [q] ∧ p.parkedGoal 0 q = 5 ∧ away.parkedGoal 1 q = 5 ∧ (5 : Nat) ≠ 6 ∧
    (plain.core 0).emitParked = [] ∧ ready (flying p (probeHome 0) (probe 5)) 1 (flown p (probeHome 0) (probe 5)) = true ∧
    ready (flying p (probeHome 0) (probe 6)) 1 (flown p (probeHome 0) (probe 6)) = true ∧ (away.core (away.coreAt 1)).emitParked = [q] ∧
    ready (flying away (probeHome 1) (.probe 0 1 5)) 1 (flown away (probeHome 1) (.probe 0 1 5)) = true := by decide +kernel

/-- A graph of that stage whose wave has drained, with what follows and its control nodes, and a state that holds it. -/
def wave (after : Nat) (nodes : List Node) : Graph := { graph1 with live := 0, after := some after, nodes := nodes }
def waved (after : Nat) (nodes : List Node) : State := plain.setDie 0 { plain.die 0 with graphs := [wave after nodes] }

/-- GraphEvents: nodes that choose a stage, the end, and themselves for ever. -/
theorem witness_waves :
    let arm (t : Nat) : Arm := ⟨t, 0x8000⟩
    let loop : Node := ⟨1, 0, 0, 0, [arm 0, arm 0xFFFF], 7⟩
    let cond : Node := ⟨2, 0, 0, 1, [arm 0x8000, arm 0xFFFF], 0⟩
    let ever : Node := ⟨3, 0, 0, 0, [arm 0x8000], 0⟩
    ([loop, cond, ever].all fun nd => decide ((waved 0x8000 [nd]).graph 0 1 = some (wave 0x8000 [nd]))) = true ∧
    (waved 0xFFFF []).graph 0 1 = some (wave 0xFFFF []) ∧ ((waved 0xFFFF []).partition 0).halted = false ∧
    ((wave 0x8000 [ever]).evaluate 32 0).isNone = true ∧
    ((wave 0x8000 [loop]).evaluate 32 0).map (fun r => (r.1.target, r.2.1, r.2.2.1)) = some (0, 0, 7) ∧
    ((wave 0x8000 [cond]).evaluate 32 0).map (fun r => (r.1.target, r.2.1, r.2.2.1)) = some (0xFFFF, 0, 0) := by decide +kernel

/-- GraphEvents, StepKeepsItems: the graphs of those waves are within the limits. -/
theorem witness_wave_ok (nd : Node) (t : Nat) (h : t = 0 ∨ t = 0x8000 ∨ t = 0xFFFF) (hn : (nd.kind = 3 ∧ nd.arms = [⟨t, 0x8000⟩]) ∨
    (nd.kind ≠ 3 ∧ nd.arms = [⟨t, 0x8000⟩, ⟨0xFFFF, 0x8000⟩])) : (wave 0x8000 [nd]).ok := by
  have a : ∀ x : Nat, x = 0x8000 ∨ x = 0xFFFF → (wave 0x8000 [nd]).afterOk x := by
    rintro x (rfl | rfl)
    · exact .inr ⟨0, rfl, by simp [wave]⟩
    · exact .inl rfl
  have b : t < (wave 0x8000 [nd]).stages.length ∨ (wave 0x8000 [nd]).afterOk t := by
    rcases h with rfl | h
    · exact .inl (by simp [wave, graph1])
    · exact .inr (a t h)
  refine ⟨by simp [wave, graph1], by simp [wave], ?_, ?_⟩
  · intro x hx
    simp only [wave, Option.some.injEq] at hx
    exact a x (.inl hx.symm)
  · intro y hy
    simp only [wave, List.mem_singleton] at hy
    subst hy
    rcases hn with ⟨k, l⟩ | ⟨k, l⟩ <;> simp only [k, l] <;> refine ⟨by simp, ?_⟩ <;> simp <;> grind

theorem witness_wave_nodes : (wave 0x8000 [⟨1, 0, 0, 0, [⟨0, 0x8000⟩, ⟨0xFFFF, 0x8000⟩], 7⟩]).ok :=
  witness_wave_ok _ 0 (.inl rfl) (.inr ⟨by decide, rfl⟩)

theorem witness_graph_events_distinct (b : Body) : (flying plain (engineHome 0) b).distinct := by
  show ([(flown plain (engineHome 0) b).id]).Nodup; simp

/-- RecordAndLeaseEvents: a seal and a notice of a live graph and of none, first and second; a request of a free unit; runs in their turn
and out of it. -/
theorem witness_record_events :
    let s := graphed (thread 0 []) ⟨1, 0, 4, []⟩
    let it : Item := { item1 with record := some 64 }
    let f (u : State) (b : Body) : Bool := ready (flying u (engineHome 0) b) 1 (flown u (engineHome 0) b)
    let rec_ (r : Record) : State := s.setDie 0 { s.die 0 with records := [r] }
    let req : State := { plain with phraseReqs := [⟨0, 0, 0, 2⟩] }
    let run : PhraseRun := ⟨9, 1, [], [], [], 0, 1, ⟨[], 0, [], 0, 0⟩⟩
    let l : PhraseLease := ⟨9, 0, 0, 2, 1, 0, false⟩
    let late : PhraseLease := ⟨9, 0, 0, 2, 2, 1, false⟩
    (f s (.seal it) && f plain (.seal it) && f (rec_ ⟨64, 1, none, []⟩) (.seal it) && f (rec_ ⟨64, 0, none, [1]⟩) (.seal it) &&
      f s (.notice 64 256) && f s (.notice 64 1) && f (rec_ ⟨64, 1, none, [2]⟩) (.notice 64 1) && f (rec_ ⟨64, 0, some it, []⟩) (.notice 64 1)) = true ∧
    ({ plain with entering := [⟨0, .powerDown, ⟨0, 1, 0, 0⟩, false⟩] } : State).enteringPower 0 = true ∧ plain.enteringPower 0 = false ∧ s.graphOf 1 ≠ none ∧ plain.graphOf 1 = none ∧ it.graph / 128 = 0 ∧
    (s.graphHalted 1 || plain.graphHalted 1 || s.graphHalted 256) = false ∧
    (s.die 0).records = [] ∧ ((rec_ ⟨64, 0, none, [1]⟩).die 0).records = [⟨64, 0, none, [1]⟩] ∧
    req.phraseReqs.find? (fun x => x.chan == 0) = some ⟨0, 0, 0, 2⟩ ∧ req.phraseLeases = [] ∧ req.channelAwake 0 = true ∧
    run.num = l.done + 1 ∧ run.num ≠ late.done + 1 ∧
    (let u := flying { plain with phraseLeases := [l] } (channelHome 0) (.phRun run)
     u.findWork 1 = some (flown plain (channelHome 0) (.phRun run)) ∧ u.phraseLease 9 = some l ∧ u.clear (flown plain (channelHome 0) (.phRun run)) = true ∧
     u.regions = [] ∧ (u.cluster 0).sectors = []) := by decide +kernel

/-- TranslationEvents: invalidations that arrive, and acknowledged ones that wait and do not; migrations of frames that are there, and of
frames that are not; a descriptor that is right and one that is wrong. -/
theorem witness_translation_events :
    let inval (kind : Nat) (drain : List Nat) : Body := .inval kind 0 0 0 4096 drain
    let mig (release : Bool) (v : Option Nat) : Body := .migrate release 0 65536 4096 (scratchKey 0 0) 5 v
    let f (b : Body) : Bool := decide ((flying plain 0x20000 b).findWork 1 = some (flown plain 0x20000 b))
    (f (inval 0 []) && f (inval 1 []) && f (inval 2 []) && f (mig false none) && f (mig true none) && f (mig false (some 0))) = true ∧
    (flying plain 0x20000 (inval 0 [1])).findWork 1 ≠ none ∧ plain.findWork 1 = none ∧ plain.usersOf 0 0 0 0 4096 = [] ∧
    (flying plain (channelHome 0) (.store ⟨0, 8, .home, 0, [⟨0, true, 0, 4096, 0x3F⟩]⟩ 0 255)).usersOf 0 0 0 0 4096 ≠ [] ∧ (plain.cluster 0).sectors = [] ∧
    plain.frameAbsent 0 4096 = false ∧ plain.frameAbsent 65536 4096 = false ∧ plain.frameAbsent (2 ^ 45) 4096 = true ∧ plain.regions = [] ∧
    (migrationOf (0 + 65536 * 2 ^ 64 + 5 * 2 ^ 144)) = some (false, 0, 65536, 4096, 5) ∧ (migrationOf (2 ^ 144 + 2 ^ 136)).isSome = true ∧
    migrationOf (3 * 2 ^ 128) = none ∧ super.tagSet 5 = true ∧ (super.setMe { super.me with tags := 0 }).tagSet 5 = false ∧
    super.privileged = true ∧ super.thread.pend = .none ∧ (match super.blockAt (at0 64) 64 with | .ok a => (super.readNow a).isSome | .error _ => false) = true := by
  decide +kernel

/-- Preemption: descriptors that are right and wrong, cores that are there and not; the stages of each operation. -/
theorem witness_preemption :
    let d (op m : Nat) : Nat := 0x10000 + (at0 128).toNat * 2 ^ 64 + 1 * 2 ^ 128 + op * 2 ^ 144 + 5 * 2 ^ 152 + 2 ^ 14 * 2 ^ 160 +
      (at0 192).toNat * 2 ^ 192 + m * 2 ^ 256
    let b (op : Nat) (list : List Nat) (stage : Nat) (v : Option Nat) : Body := .preempt op [] list [2] 16384 (scratchKey 0 0) 5 stage v
    let f (op : Nat) (list : List Nat) (stage : Nat) (v : Option Nat) : Bool :=
      decide ((flying plain 0x20000 (b op list stage v)).findWork 1 = some (flown plain 0x20000 (b op list stage v)))
    let s := flying plain 0x20000 (b 0 [1] 1 none)
    preemptFieldsOk (d 0 1) = true ∧ preemptFieldsOk (d 1 1) = true ∧ preemptFieldsOk (d 2 1) = true ∧ preemptFieldsOk (d 3 1) = true ∧
    preemptFieldsOk (d 0 0) = false ∧
    preemptFieldsOk (d 4 1) = false ∧ preemptFieldsOk 0 = false ∧ (super.coreList (at0 128) 1).1 = some (some [0]) ∧ (super.coreList 3 1).1 = none ∧
    (match ((super.setMe { super.me with dtlb := [⟨0, true, 0, 2097152, 0x3F⟩] }).translateAll 0x10000 655360 { r := true, w := true }).1 with
      | .ok _ => true | .error _ => false) = true ∧
    (f 0 [1] 0 none && f 0 [1] 1 none && f 0 [1] 2 none && f 2 [1] 0 none && f 2 [1] 2 none && f 3 [1] 0 none && f 1 [1] 0 none && f 0 [1] 3 (some 0)) = true ∧
    plain.present 1 = true ∧ plain.present 2048 = false ∧ s.someSlot [1] Thread.running = false ∧ s.drained 1 [1] = true ∧ s.networkQuiet 0 = true ∧ s.someSlot [0] Thread.running = true ∧
    s.someSlot [0] (fun t => t.running && t.stopping.isNone) = true ∧
    (let p := s.setThreadAt 0 0 { s.threadAt 0 0 with stopping := some .bySave }
     p.someSlot [0] (fun t => t.running && t.stopping.isNone) = false ∧ p.someSlot [0] Thread.running = true) ∧
    (flying s 0 (.ret (.s 5) 0 none 0 [])).drained 1 [0] = false ∧
    s.regions = [] ∧ (s.cluster 0).sectors = [] ∧ 1 < s.nextId ∧ s.quiescent 2 = true ∧ s.power = [] ∧ s.entering = [] := by decide +kernel

/-- DebugHalts: a halt and a resume that were sent, one that is not the first, and the runtime's; a slot with a result outstanding. -/
theorem witness_debug :
    let h := flying plain 0 (.debug true)
    let r := flying plain 0 (.ret (.s 5) 0 none 0 [])
    let first (s : State) (p : Nat) : Option Nat := (s.work.find? (s.debugs p)).map (·.id)
    h.findWork 1 = some (flown plain 0 (.debug true)) ∧ first h 0 = some 1 ∧ first h 1 = none ∧ (1 : Nat) ≠ 0 ∧ h.partOf 0 = 0 ∧
    first (flying h 0 (.debug false)) 0 ≠ some 2 ∧ ({ h with partitionOf := [(0, 1)] } : State).partOf 0 ≠ 0 ∧
    (flying plain 0 (.debug false)).findWork 1 = some (flown plain 0 (.debug false)) ∧ first (flying plain 0 (.debug false)) 0 = some 1 ∧
    ({ plain with inputs := [.reset, .debugger 2 true] } : State).inputs = [.reset] ++ .debugger 2 true :: [] ∧
    (plain.threadAt 0 0).slot = .ready ∧ (plain.threadAt 0 0).pend = .none ∧ (plain.threadAt 0 0).pendTrap = none ∧
    (plain.threadAt 0 0).stopping = none ∧ plain.outstanding 0 0 = false ∧ r.outstanding 0 0 = true ∧ r.work.all (fun w => w.arrived.isNone) = true ∧
    ((one { thread 0 [] with slot := .stopped, mark := .byHalt }).threadAt 0 0).mark = .byHalt := by decide +kernel

/-- Preemption, DebugHalts: no slot of the machine after reset holds a monitor or a withdrawn access. -/
theorem witness_calm_slots (c j : Nat) : (State.reset.threadAt c j).monitors = [] ∧ (State.reset.threadAt c j).withdrawn = [] := by
  have : State.reset.threadAt c j = {} := by
    show vget (Vector.replicate 16 ({} : Thread)) j {} = {}
    unfold vget; split <;> simp
  rw [this]; exact ⟨rfl, rfl⟩

/-- A message of a TYPE, with SEQ 7 and PARTITION 3, that came over port 0. -/
def message (type : Nat) (b : LitarBody) : Litar := ⟨0, Vector.ofFn (fun i => if i.val = 0 then BitVec.ofNat 8 type else if i.val = 4 then 7 else if i.val = 8 then 3 else 0), b⟩

/-- Boot: a reset from outside, a port that times out, a part of an image and a whole one that is not accepted, and each packet where its
clauses have it. -/
theorem witness_boot :
    let msg (image : List Byte) : Litar := message 1 (.boot image [] [])
    let s (l : List Byte) : State := { plain with inputs := [.litar (msg l)] }
    let late := ({ plain with deadPorts := [0], linked0 := false } : State).setMe { plain.me with clock := 2 ^ 32 }
    let disc : Body := .discovery 0 0 0
    let img (tile : Nat) : Body := .image tile 0 0 [1, 2]
    let f (u : State) (b : Body) : Bool := decide ((flying u 0 b).findWork 1 = some (flown u 0 b))
    ({ plain with inputs := [.reset] } : State).inputs.contains .reset = true ∧ late.boot = .waiting ∧ late.bootPort = 0 ∧
    late.linked0 = false ∧ ({ late with linked0 := true } : State).linked0 = true ∧ 2 ^ 32 ≤ (late.core 0).clock ∧
    (s []).litarAt 0 = some (msg []) ∧ (msg []).port = (s []).bootPort ∧ (msg []).clean = true ∧ (msg []).typed = true ∧
    imageWhole [] = false ∧ imageWhole (List.replicate 255 0) = false ∧ imageWhole (List.replicate 256 0) = true ∧
    (s []).imageOk (List.replicate 256 0) = false ∧ (s (List.replicate 256 0)).litarAt 0 = some (msg (List.replicate 256 0)) ∧
    (f plain disc && f { plain with coords := [(0, 0, 0)] } disc) = true ∧ plain.coords.any (fun c => c.1 == 0) = false ∧
    ({ plain with coords := [(0, 0, 0)] } : State).coords.any (fun c => c.1 == 0) = true ∧
    (f plain (img (plain.tileOfCore 0)) && f plain (img (plain.tileOfCore 0 + 1)) && f plain (.imageAck 0 0) && f plain (.imageAck 5 0)) = true ∧
    plain.moved = [] ∧ plain.bad = [] ∧ ({ plain with awaiting := [0, 1] } : State).awaiting.erase 0 ≠ [] ∧
    ({ plain with awaiting := [0] } : State).awaiting.erase 0 = [] := by decide +kernel

/-- ControlProtocol: requests of every type, a message of none, one whose body is not of its type, frames, flits before, at and after their turn,
and channels on their way to a lower state and back. -/
theorem witness_control_protocol :
    let s (i : HostInput) : State := { plain with boot := .running, inputs := [i] }
    let ok (n : Nat) (b : LitarBody) : Bool := decide ((s (.litar (message n b))).request 0 = some (message n b))
    let at_ (n : Nat) (b : LitarBody) : Bool := decide ((s (.litar (message n b))).litarAt 0 = some (message n b))
    let e : PowerEntry := ⟨3, .selfRefresh, ⟨0, 0, 0, 0⟩, false⟩
    (ok 2 (.launch 0 1 0 0 0 0 true) && ok 3 (.map [(64, [1])] []) && ok 3 (.map [] [(1, [0])]) && ok 4 (.copyIn 64 [1]) && ok 4 (.copyOut 64 8) &&
      ok 5 .query && ok 6 (.quote (Vector.replicate 32 0)) && ok 7 (.power 255 .active) && ok 7 (.power 0 .powerDown)) = true ∧
    ((s (.litar (message 2 (.launch 0 1 0 0 0 0 true)))).graphPlan ⟨3, 0, 0, 0, true⟩ 1).1 = none ∧
    (s .reset).request 0 = none ∧ (s .reset).holdsFrame (message 8 .unknown) = false ∧ (s .reset).partitions.any (·.2.halted) = false ∧
    ({ s (.scedy 0 0 none) with partitions := [(3, { halted := true })] } : State).partitions.any (·.2.halted) = true ∧
    (s .reset).sharesFree none = true ∧ (s .reset).regions = [] ∧ (s .reset).power = [] ∧ (s .reset).entering = [] ∧ (s .reset).moved = [] ∧
    (s .reset).forwards = [] ∧ (s .reset).bad = [] ∧ (s .reset).paused = [] ∧ ({ s .reset with paused := [0] } : State).paused.contains 0 = true ∧
    (at_ 0 .unknown && at_ 8 .unknown && at_ 2 .query) = true ∧ (message 0 .unknown).defined = false ∧ (message 8 .unknown).defined = false ∧
    (message 7 .unknown).defined = true ∧ (message 2 .query).typed = false ∧ (message 5 .query).typed = true ∧ (message 5 .query).clean = true ∧
    (⟨0, vset (message 5 .query).header 15 1, .query⟩ : Litar).clean = false ∧ (s (.foreign 0)).inputs[0]? = some (.foreign 0) ∧
    (s (.pfc 0 false)).inputs[0]? = some (.pfc 0 false) ∧ (s (.linkDown true 1)).inputs[0]? = some (.linkDown true 1) ∧
    sget (s (.scedy 0 1 none)).flits 0 0 < 1 ∧ sget (s (.scedy 0 0 none)).flits 0 0 = 0 ∧
    0 < sget ({ s (.scedy 0 0 none) with flits := [(0, 1)] } : State).flits 0 0 ∧
    ({ plain with entering := [e] } : State).entering.find? (fun x => x.chan == 3) = some e ∧ e.applied = false ∧
    ({ plain with power := [(3, .selfRefresh)] } : State).channelAwake 3 = false ∧
    ((flying plain (channelHome 3) (.notice 64 1)).work.any (fun w => channelHomed w.home == some 3)) = true := by decide +kernel

/-- ControlProtocol: a launch that can start: its descriptor at address 64, its one stage's record at 128, of one thread at 0x2000 on core 0,
and the list of its placements at 192. -/
theorem witness_launch :
    let m : Litar := message 2 (.launch 0 64 0 0 0 0 true)
    let s := State.reset.setCore 0 { ({} : Core) with dtlb := [⟨0, true, 0, 4096, 0x3F⟩] }
    let u : State := { s with
      boot := .running, inputs := [.litar m],
      mem := [(64, 1), (70, 0xFF), (71, 0xFF), (72, 128), (129, 0x20), (176, 192), (184, 1), (188, 1), (189, 1)] }
    u.request 0 = some m ∧
    (match ({ u with inputs := [] } : State).graphPlan ⟨3, 0, 0, 0, true⟩ 64 with
      | (some p, t) => p.stages.length == 1 && t.canStart p && (t.graph 0 1).isNone
      | (none, _) => false) = true := by decide +kernel

/-- A word placed in the machine after reset. -/
noncomputable def placed (w : Nat) : State := State.reset.withFetchWord 32 w

/-- StepRunsDecoded: a lone word, a jl.l, a pair and a word that is no instruction, placed and latched; a step at which an event is due. -/
theorem witness_steps :
    let s1 (w : Nat) : State := { ({ placed w with turn := 1 } : State).at_ 0 0 with last := .completed }
    let gives (w n : Nat) (l : List (BitVec 32)) : Bool := let u := { ({ State.reset.withFetchWord n w with turn := 1 } : State).at_ 0 0 with last := .completed }
      (match u.fetchWords.1 with | .ok x => x == l | .error _ => false) && u.thread.latch.isEmpty
    (placed 0x20403400).sched = [] ∧ (placed 0x20403400).nextUnit = .core 0 ∧ ((placed 0x20403400).core 0).boundary = false ∧
    ({ placed 0x20403400 with turn := 1 } : State).pick 0 = some 0 ∧
    gives 0x20403400 32 [0x20403400] = true ∧ gives 0x3F00040098000000 64 [0x98000000, 0x3F000400] = true ∧ gives 0 32 [0] = true ∧
    gives 0x2040340085289600 64 [0x85289600, 0x20403400] = true ∧ (s1 0x20403400).mustWait false = false ∧
    (flying (one { thread 0 [] with latch := [0x60403400] }) 0 (.ret (.s 5) 0 none 0 [])).mustWait true = true ∧
    isJlL 0x98000000 = true ∧ isJlL 0x85289600 = false ∧ isAClass 0x20403400 = true := by decide +kernel

theorem witness_steps_calm : (placed 0x20403400).firstEvent.isNone = true := by decide +kernel

theorem witness_steps_event : ({ State.reset with inputs := [.reset] } : State).firstEvent.isSome = true := by decide +kernel

/-- PairsIssue: a pair whose words complete, one whose A-class word traps, one whose C-class word traps, one whose A-class word parks, and one
that begins with a trap. -/
theorem witness_pairs :
    let first : State := { plain with snap := none, inPair := true }
    let second (t : State) : State := { t with snap := some plain.thread, inPair := false }
    let done (o : Out) : Bool := match o with | .next t => t.last == .completed | _ => false
    let trapped (o : Out) : Bool := match o with | .next t => (match t.last with | .trapped .. => true | _ => false) | _ => false
    let parked (o : Out) : Bool := match o with | .next t => t.last == .parked | _ => false
    let thenA (c a : Instr) (p : Out → Bool) : Bool := match exec c first with | .next t => p (exec a (second (plain.yieldTo t a))) && t.thread.slot == .ready | _ => false
    let nx := one { thread 0x1000 [] with enables := 31 }
    let ffirst : State := { nx with snap := none, inPair := true }
    let fsecond (t : State) : State := { t with snap := some nx.thread, inPair := false }
    plain.thread.pend = .none ∧ plain.me.queuesReady ((Instr.j 1).uses ++ (Instr.add 5 6 7).uses) = true ∧
    Machine.Instr.trapping (.j 1) = false ∧ done (exec (.j 1) first) = true ∧ thenA (.j 1) (.add 5 6 7) done = true ∧
    trapped (exec (.jr 1) { (one (thread 0x1000 [0, 2])) with snap := none, inPair := true }) = true ∧
    (match exec (.j 1) ffirst with | .next t => trapped (exec (.fdiv 5 0 0) (fsecond (nx.yieldTo t (.fdiv 5 0 0)))) | _ => false) = true ∧
    plain.me.beyondMode (Instr.add 5 6 7).uses = false ∧ Machine.Instr.trapping (.trap 1) = true ∧ plain.outstanding 0 0 = false ∧
    done (exec (.add 5 6 7) (second plain)) = true ∧ trapped (exec (.fdiv 5 0 0) (fsecond nx)) = true ∧ parked (exec (.add 5 32 7) plain) = true := by
  decide +kernel

/-- StepRunsDecoded: a jump that is malformed by a field that it does not use, to a target that is misaligned and to one that is not; a block
that the instruction cache holds. -/
theorem witness_malformed :
    let m (x : Word) : State := one (thread 0x1000 [0, x])
    let i : Except DecodeError InstrWord := decodeFields (Machine.Fields.transfer (splitWord (clearP 0x04041040)))
    let held := paged.setMe { paged.me with itlb := [⟨0, true, 0, 4096, 0x3F⟩], icache := [(0x1000, 5)] }
    (match decodeWord 0x04041040 with | .ok _ => false | .error _ => true) = true ∧
    (match i with | .ok j => j.instr == .jrA 1 && (trapOf (exec j.instr (m 2))).map (·.1) == some 3 && (trapOf (exec j.instr (m 4))).isNone | .error _ => false) = true ∧
    heldBlock held.me.icache 0x1000 = some 5 ∧ held.sched = [] ∧ held.iparity = [] ∧
    (match (held.translate 0 0 0 true true 64 { x := true }).1 with | .ok t => t.keyOf 64 == 64 | .error _ => false) = true := by decide +kernel

/-- PairsIssue: a C-class word that parks with its request made, before an A-class word that traps and one that does not, and one that waits
on; one that completes after its answer, one that completes while the other word parks; and one after which the slot is no longer READY. -/
theorem witness_pairs_parked :
    let live (t : Thread) : State := { one { t with enables := 31 } with tensors := [tens] }
    let asks := live (thread 0x1000 [0, 5])
    let waits := live { thread 0x1000 [0, 5] with pend := .wait 90 [1] }
    let told := live { thread 0x1000 [0, 5] with pend := .answered 0 }
    let view := flying plain 0 (.handle (.st ⟨5, true, 0, [], [], [], [], []⟩ ⟨[], none, 0, 0, 0, 0, []⟩ 0) none)
    let left := one { thread 0x1000 [] with member := some { mem1 with ended := true } }
    let first (s : State) (c : Instr) : Option State := match exec c { s with snap := none, inPair := true } with | .next t => some t | _ => none
    let second (x : Thread) (t : State) : State := { t with snap := some x, inPair := false }
    asks.thread.pend.engaged = false ∧ asks.me.queuesReady ((Instr.tFree 1).uses ++ (Instr.fdiv 5 0 0).uses) = true ∧
    (first asks (.tFree 1)).any (fun t => t.last == .parked && t.thread.pend.engaged) = true ∧
    (trapOf (exec (.fdiv 5 0 0) (second asks.thread asks))).isSome = true ∧ trapOf (exec (.add 5 6 7) (second asks.thread asks)) = none ∧
    waits.thread.pend.engaged = true ∧ (first waits (.tFree 1)).any (fun t => t.last == .parked) = true ∧ told.thread.pend.engaged = true ∧
    (first told (.tFree 1)).any (fun t => t.last == .completed && t.thread.slot == .ready) = true ∧
    (first view (.j 1)).any (fun t => t.last == .completed && t.thread.slot == .ready &&
      (match exec (.crRd 5 0x011) (second view.thread.asRead ((view.yieldTo t (.crRd 5 0x011)).setMe
          ((view.yieldTo t (.crRd 5 0x011)).me.putBack (view.thread.heldFor (.crRd 5 0x011))))) with
        | .next u => u.last == .parked | _ => false)) = true ∧
    Machine.Instr.trapping (.tFree 1) = false ∧ Machine.Instr.trapping (.take 0 0) = false ∧
    (first left (.take 0 0)).any (fun t => t.last == .completed && t.thread.slot != .ready) = true := by decide +kernel

/-- PairsIssue: pairs whose queues are not ready, before anything has issued and later; with a trap that comes first, with one that does not,
and with a register that the mode lacks. -/
theorem witness_pairs_waiting :
    let busy := one { thread 0x1000 [] with pend := .wait 0 [] }
    let few := plain.setMe { plain.me with mode := 0 }
    plain.me.queuesReady ((Instr.jr 32).uses ++ (Instr.add 5 6 7).uses) = false ∧ plain.thread.pend.engaged = false ∧
    busy.thread.pend.engaged = false ∧
    plain.me.queuesReady ((Instr.j 1).uses ++ (Instr.add 5 32 7).uses) = false ∧ trapOf (exec (.j 1) plain) = none ∧
    plain.me.beyondMode ((Instr.j 1).uses ++ (Instr.add 5 32 7).uses) = false ∧
    few.me.beyondMode ((Instr.vld 31 0 0).uses ++ (Instr.vadd 31 31 31 0).uses) = true ∧
    (trapOf (exec (.crWr 5 0x021) plain)).map (·.1) = some 4 ∧ Machine.Instr.trapsFirst (.crWr 5 0x021) 4 = true := by decide +kernel

/-- QueueOperands: a load into a queue and a store of what a queue holds, whose addresses pass and fail. -/
theorem witness_queue_accesses :
    let e : QEntry := ⟨1, 0, 5⟩
    let s := (one (thread 0x1000 [0, at0 64, 3])).setMe { (one (thread 0x1000 [0, at0 64, 3])).me with queues := vset plain.me.queues 0 [e] }
    (s.checkAddr (s.scalar 1) 8 rawWindows true { r := true } false).1 = .ok (cell 64 8) ∧ s.held (cell 64 8).key 8 false = false ∧
    (match (s.checkAddr (s.scalar 2) 8 rawWindows true { r := true } false).1 with | .ok _ => false | .error _ => true) = true ∧
    ((s.pop 0).2.checkAddr (s.scalar 1) 64 rawWindows true { w := true } false).1 = .ok (cell 64 64) ∧
    (match ((s.pop 0).2.checkAddr (s.scalar 2) 8 rawWindows true { w := true } false).1 with | .ok _ => false | .error _ => true) = true ∧
    s.me.queue 0 = [e] ∧ (s.me.queue 0).length < s.me.cap 0 := by decide +kernel

/-- DecodeEncode: an instruction of each size, with and without its bits. -/
theorem witness_encode : (Instr.add 16 3 16).wf = true ∧ (Instr.add 16 3 16).isEvent = false ∧ (encodeFields (.ldD 10 9 0)).major.toNat < 32 ∧
    (Instr.jlL 0x400000000).wf = true ∧ (Instr.jlL 0x400000000).isEvent = false := by decide +kernel

/-- WordsUnique: a word that decodes. -/
theorem witness_words : (match decodeWord 0x20403400 with | .ok i => i.instr == .add 16 3 16 | .error _ => false) = true := by decide +kernel

/-- StepKeepsMemory, StepKeepsCores, StepKeepsItems: a state that keeps them and takes a step to another. -/
theorem witness_invariants : (placed 0x20403400).memOk ∧ (placed 0x20403400).distinct ∧ (placed 0x20403400).work.all (fun w => decide (w.id < (placed 0x20403400).nextId)) = true ∧
    (placed 0x20403400).curSlot < 16 ∧ (placed 0x20403400).clusters = [] ∧ (placed 0x20403400).dies = [] ∧
    (match step (placed 0x20403400) with | .next t => (t.threadAt 0 0).pc == 4 | _ => false) = true := by
  unfold State.memOk State.distinct; decide +kernel

/-! ## Worked examples of the specification -/

/-- Performs a list of lexicon commands, and collects their values. -/
def lexAll (s : State) : List (Nat × LexCmd) → List Nat × State
  | [] => ([], s)
  | (v, c) :: r =>
    let (a, s) := s.lexPerform (s.partAt 0) v c
    let (l, s) := lexAll s r
    ((match a with | .value x _ => x | .full => 0) :: l, s)

/-- The worked fork (26): slots 16 to 23, 20 with its entries, budget and drafts. -/
def forkSlot : LexSlot :=
  let e0 : LexEntry := ⟨[some 5, none, some 7], 2, 0, 0, [], 0⟩
  let e1 : LexEntry := ⟨[some 7], 4, 0x80, 1, [], 0⟩
  { state := .run, entries := vset (vset (Vector.replicate 8 none) 0 (some e0)) 1 (some e1), b0 := { count := 4, enabled := true }, drafts := [5, 6, 7, 8] }

def forkState : State :=
  let run : LexSlot := { state := .run }
  let s := State.reset.setDie 0 { State.reset.die 0 with
    lexicon := [(16, run), (17, run), (18, run), (19, run), (20, forkSlot), (21, { state := .stopped })] }
  { s with partitions := [(0, { lexBase := vset (Vector.replicate 2 0) 0 16, lexNum := vset (Vector.replicate 2 0) 0 8 })] }

/-- The worked fork (26): the values of its commands, of tk.next, and of tk.st. -/
theorem test_worked_fork :
    (lexAll forkState [(20, .conf 4), (20, .cmt 9), (22, .cmt 7), (22, .cmt 3), (20, .next), (22, .next), (20, .st 31), (22, .st 31), (23, .st 0)]).1 =
      [0x0000301604000007, 0x82000009, 0x18000007, 0x82000003, 0x0000000400000001, 0x0000000500000001, 0x0000000200000000,
        0x0000000200000000, 0] := by decide +kernel

/-- The worked fork (26): core 1 receives one message. -/
theorem test_worked_fork_message :
    ((lexAll forkState [(20, .conf 4), (20, .cmt 9), (22, .cmt 7), (22, .cmt 3)]).2.core 1).mailbox = [⟨0x0000000300160160, 7⟩] := by decide +kernel

/-- A register after an instruction. -/
def after (i : Instr) (s : State) (r : Nat) : Option Word :=
  match exec i s with | .next t => some (vget t.thread.s r 0) | _ => none

/-- cr.fflags after an instruction. -/
def flagsAfter (i : Instr) (s : State) : Option (BitVec 5) :=
  match exec i s with | .next t => some t.thread.fflags | _ => none

/-- The result of the first item in flight after an instruction. -/
def returned (i : Instr) (s : State) : Option VWord :=
  match exec i s with
  | .next t => (match t.work.map (fun w => w.body) with | (.ret _ v _ _ _ : Body) :: _ => some v | _ => none)
  | _ => none

/-- R97: the three words that build an address. -/
theorem test_movi_movk : after (.movi 16 1 0x000C) plain 16 = some 0xC0000 ∧
    after (.movk 16 2 5) (one (thread 0 (List.replicate 16 0 ++ [0xC0000]))) 16 = some 0x5000C0000 ∧
    after (.movk 16 3 0xF000) (one (thread 0 (List.replicate 16 0 ++ [0x5000C0000]))) 16 = some 0xF0000005000C0000 := by decide +kernel

/-- R100: the table's sums under RNE and under RUP. -/
theorem test_fadd : let s := one (thread 0 [0, 0x3F800000, 0x33800000])
    after (.fadd 5 1 2) s 5 = some 0x3F800000 ∧ flagsAfter (.fadd 5 1 2) s = some 1 ∧
    after (.fadd 5 1 2) (one { thread 0 [0, 0x3F800000, 0x33800000] with rm := 2 }) 5 = some 0x3F800001 := by decide +kernel

/-- R101: the table's conversions: -2.5, -0.5 and -1.0, and 1.0e20. -/
theorem test_fcvt : let s := one (thread 0 [0, 0xC0200000, 0xBF000000, 0xBF800000, 0x60AD78EC])
    after (.fcvtIF 5 1) s 5 = some 0xFFFFFFFFFFFFFFFE ∧ flagsAfter (.fcvtIF 5 1) s = some 1 ∧ after (.fcvtIuF 5 2) s 5 = some 0 ∧
    flagsAfter (.fcvtIuF 5 2) s = some 1 ∧ after (.fcvtIuF 5 3) s 5 = some 0 ∧ flagsAfter (.fcvtIuF 5 3) s = some 16 ∧
    after (.fcvtIF 5 4) s 5 = some 0x7FFFFFFFFFFFFFFF ∧ flagsAfter (.fcvtIF 5 4) s = some 16 := by decide +kernel

/-- R100: 1.0 by +0. -/
theorem test_fdiv : returned (.fdiv 5 1 0) (one (thread 0 [0, 0x3F800000])) = some 0x7F800000 ∧
    flagsAfter (.fdiv 5 1 0) (one (thread 0 [0, 0x3F800000])) = some 8 := by decide +kernel

/-- Lanes, the first lowest. -/
def lanes (l : List Lane) : VWord := l.foldr (fun x acc => (acc <<< 32) ||| x.setWidth 512) 0

/-- The source of the worked conversion (12). -/
def sixes : VWord := lanes [0x40C00000, 0xC0C00000, 0x3F000000, 0x3FC00000, 0x40400000, 0xBF000000, 0x40000000, 0x40A00000, 0, 0, 0, 0, 0, 0,
  0x7FC00000, 0x40E00000]

/-- R175: the worked conversion down to E2M1 writes two lanes and raises NV, OF and NX; with EN.OF set it traps. -/
theorem test_worked_conversion :
    let t : Thread := { thread 0 [] with v := vset (vset (Vector.replicate 32 0) 1 sixes) 2 (lanes (List.replicate 16 0x11111111)) }
    (match exec (.vcvtDn 2 1 9 0) (one t) with
      | .next u => vget u.thread.v 2 0 == lanes ([0x649531F7, 0x77000000] ++ List.replicate 14 0x11111111) && u.thread.fflags == 0x15
      | _ => false) = true ∧
    (match exec (.vcvtDn 2 1 9 0) (one { t with enables := 4, tvec := 0x8000 }) with
      | .next u => u.thread.cause == 0x30 && u.thread.tinfo == 0x15 && u.thread.pc == 0x8000 && u.thread.v == t.v && u.thread.fflags == 0
      | _ => false) = true := by decide +kernel

/-- R175: the conversion back up. -/
theorem test_worked_conversion_up :
    let t : Thread := { thread 0 [] with v := vset (Vector.replicate 32 0) 2 (lanes [0x649531F7, 0x77000000]) }
    (match exec (.vcvtUp 3 2 9 0) (one t) with
      | .next u => vget u.thread.v 3 0 == lanes [0x40C00000, 0xC0C00000, 0x3F000000, 0x3FC00000, 0x40400000, 0xBF000000, 0x40000000, 0x40800000,
          0, 0, 0, 0, 0, 0, 0x40C00000, 0x40C00000] && u.thread.fflags == 0
      | _ => false) = true := by decide +kernel

/-- R157: the first draw of slot 0 of core 0: 1 + 2^-9 rounds to BF16 as 0x3F81, with NX. -/
theorem test_stochastic : srsStep 0x9E3779B9 = 0x3C6EF373 ∧ srsDraw 0x3C6EF373 = 0x3C6EF3 ∧
    (Machine.round bf16 .sr false 0x3C6EF3 (f32 0x3F804000)) = (0x3F81, 1) := by decide +kernel

/-- 11 R164: lanes 1.0, 2^24 and fourteen zeros add to 2^24, with NX. -/
theorem test_vred_add :
    let t : Thread := { thread 0 [] with v := vset (Vector.replicate 32 0) 1 (lanes [0x3F800000, 0x4B800000]) }
    after (.vredAdd 5 1 0) (one t) 5 = some 0x4B800000 ∧ flagsAfter (.vredAdd 5 1 0) (one t) = some 1 := by decide +kernel

/-- R185-R192: the worked addresses: a raw one, one of a slot window whose element is beyond its slot, and three that fail. -/
theorem test_worked_addresses :
    let s := plain.setMe { plain.me with win := vset (vset plain.me.win 0 (2 ^ 63 + 0x12 * 2 ^ 8 + 9)) 1 (2 ^ 63 + 0x11 * 2 ^ 8 + 5) }
    (match s.place 0xF000004C001C0080 0 rawWindows with | .ok p => p.core == 1024 + 12 * 16 + 7 && p.loc == 0x80 | _ => false) = true ∧
    (match s.place 0xF008000000000000 0 rawWindows with | .error e => e == 0x14 | _ => false) = true ∧
    (match s.place 0xF0C0000500000000 0 rawWindows with | .error e => e == 0x15 | _ => false) = true ∧
    (match s.place 0xF0000005003C0000 0x40000 rawWindows with | .error e => e == 0x16 | _ => false) = true ∧
    (match s.windowSpan 0xF0400005000C0034 elementWindows 1 with | .error e => e == 0x13 | _ => false) = true ∧
    (match s.windowSpan 0xF0300005000C0025 elementWindows 1 with | .error _ => false | _ => true) = true := by decide +kernel

/-- R123-R125: trap 0x2A enters the handler, and eret returns from it. -/
theorem test_trap_eret :
    (match exec (.trap 0x2A) (one { thread 0x1000 [] with tvec := 0x8000 }) with
      | .next u => u.thread.pc == 0x8000 && u.thread.cause == 5 && u.thread.tinfo == 0x2A && u.thread.tpc == 0x1004 && u.thread.hm && u.thread.unread
      | _ => false) = true ∧
    (match exec .eret (one { thread 0x8000 [] with tpc := 0x1004, hm := true, unread := true }) with
      | .next u => u.thread.pc == 0x1004 && !u.thread.hm && !u.thread.unread
      | _ => false) = true := by decide +kernel

/-- The lanes of the worked block (11): 6.0, -6.0, 0.5, 1.5, 3.0, -0.5, 2.0 and 0.25, and zeros. -/
def blockVals : List Val := [0x40C00000, 0xC0C00000, 0x3F000000, 0x3FC00000, 0x40400000, 0xBF000000, 0x40000000, 0x3E800000, 0, 0, 0, 0, 0, 0, 0, 0].map f32

/-- R161, R162: the worked plane-form block: its bytes, its flags, and what it reads back as. -/
theorem test_worked_block :
    let r := encodePlane 9 0x12 4 .rne false (List.replicate 16 0) blockVals
    r.1.toNat 4 = 0x0002_0001_005B_0010_0000_FFFF_0001_0038 ∧ r.2 = 3 ∧
    ((planeVals 9 0x12 r.1).map (fun v => (Machine.round fp32 .rne false 0 v).1)).take 8 =
      [0x40C00000, 0xC0C00000, 0, 0x40000000, 0x40400000, 0, 0x40000000, 0] := by decide +kernel

/-- R206, R208: the worked sparse product: column 0 is -1.0, column 1 is +0, without a flag. -/
theorem test_worked_sparse_product :
    let c : TileCfg := ⟨16, 16, 32, 0x0D, 0x0D, 4, 4, 32, 32, 0, 0, 8⟩
    let ones : PlaneBlock := ⟨0, 0, 0, 0xFFFFFFFF, List.replicate 32 1⟩
    let x := 0x11111111 * 2 ^ 32 + (0x73 + 0x5E * 2 ^ 8 + 0x6A * 2 ^ 16 + 0xAA * 2 ^ 24) * 2 ^ 64
    (sparseOfNat x 8 4).ints.filter (· != 0) = [1, -1, 2, -2, 3, -3, 7, -8] ∧
    accumulate c [ones] [sparseOfNat x 8 4] 0 = (0xBF800000, 0) ∧ accumulate c [ones] [sparseOfNat (0xFF * 2 ^ 32) 8 4] 0 = (0, 0) ∧
    blockStride (sparseBytes 8 4) = 16 := by decide +kernel

/-- R220: the worked update, and a pair at -Inf that masks nothing but -Inf. -/
theorem test_worked_update :
    bankOsm 0x40000000 0x40400000 [lanes ([0x40800000, 0x40400000] ++ List.replicate 14 0xFF800000)] = (some (0x40800000, 0x40100000), 0) ∧
    (bankOsm 0xFF800000 0 [lanes (List.replicate 16 0xFF800000)]).1 = none := by decide +kernel

/-- R57: the worked reads of a 4 by 4 tensor: where each position of V1 to V4 reads, none for FILL. -/
theorem test_worked_reads :
    let v (const : Bool) (o : List Int) (n : List Nat) (st : List Int) (lo hi : List Nat) : View := ⟨5, const, 0x63, o, n, st, lo, hi⟩
    let all (w : View) : List (Option Nat) := (List.range w.positions).map (fun i => (w.reads [4, 4] i).map (fun l => l / 4 * 10 + l % 4))
    all (v true [0, 3] [2, 3] [2, -1] [0, 1] [0, 1]) = [none, some 3, some 2, some 1, none, none, some 23, some 22, some 21, none] ∧
    all (v false [0, 3] [2, 3] [2, -1] [0, 1] [0, 1]) = [3, 3, 2, 1, 1, 23, 23, 22, 21, 21].map some ∧
    all (v false [2, 2] [2, 3] [1, 1] [0, 0] [0, 0]) = [22, 23, 23, 32, 33, 33].map some ∧
    all (v false [1, 0] [3, 4] [0, 1] [0, 0] [0, 0]) = [10, 11, 12, 13, 10, 11, 12, 13, 10, 11, 12, 13].map some := by decide +kernel

/-- R293: the running example: cluster 5 without positions 2 and 9. -/
theorem test_worked_map :
    let s : State := { State.reset with fused := [5 * 16 + 2, 5 * 16 + 9] }
    s.livePositions 5 = [0, 1, 3, 4, 5, 6, 7, 8, 10, 11, 12, 13, 14, 15] ∧ (s.livePositions 5)[2]? = some 3 ∧ (s.livePositions 5)[13]? = some 15 ∧
    s.tileOfCore 82 = tileOf 0 5 3 ∧ s.absentCores = [94, 95] := by decide +kernel

/-- The barrier object at offset 0 of core 0 after operations on it, each sent and performed. -/
noncomputable def barrierAfter : List (Nat × Word) → State → State
  | [], s => s
  | (op, x) :: r, s =>
    let acc : Access := { cell 0 16 with n := 16 }
    let w := { s.item 0x10000 [] false (.bar op acc x) with id := 1 }
    match exec (.homeAccess 1) { s with work := [w], nextId := 2 } with
    | .next t => barrierAfter r { t with work := [] }
    | _ => s

/-- R255-R257: the worked phase up to Y's arrival: init 2, exp 8192, two arrivals; and then the copy's action. -/
theorem test_worked_phase :
    let s := barrierAfter [(0, 2)] plain
    let x := barrierAfter [(0, 2), (2, 8192), (1, 0)] plain
    let y := barrierAfter [(0, 2), (2, 8192), (1, 0), (1, 0)] plain
    let c := y.barrierSub 0 (scratchKey 0 0) 8192
    let word (u : State) (i : Nat) : Nat := u.readNat (scratchKey 0 (8 * i)) 8
    word s 0 = 0x0000000200002000 ∧ word s 1 = 0 ∧ word x 0 = 0x0000000100002000 ∧ word x 1 = 0x2000 ∧ word y 0 = 0x2000 ∧ word y 1 = 0x2000 ∧
    word c 0 = 0x0010000200002000 ∧ word c 1 = 0 := by decide +kernel

/-! ## States that hold a record -/

/-- Core 2 is restored from a record of core 1 that number 0 of the saves wrote to address 0x100000, core 1 having held a thread in slot 3. -/
def savedCore : Saved := ⟨0, 1, ({} : Core).setThread 3 (thread 0x1000 [0, 7]), 0, []⟩

noncomputable def recorded : State :=
  { flying plain 0x20000 (.preempt 1 [⟨0x100000, recordSize, .home, 0, []⟩] [1] [2] 16384 0x200000 5 0 none) with
    mem := cellsFrom 0x100000 (saveRecord [0]), saves := [savedCore] }

noncomputable def restoring : Work :=
  flown plain 0x20000 (.preempt 1 [⟨0x100000, recordSize, .home, 0, []⟩] [1] [2] 16384 0x200000 5 0 none)

theorem recorded_fwd (k : Nat) : recorded.fwd k = k := by
  show forwardKey [] [] k = k
  unfold forwardKey; simp

theorem recorded_reads : recorded.records restoring [⟨0x100000, recordSize, .home, 0, []⟩] 1 = ([bytesNat (saveRecord [0])], recorded) := by
  have hs : recorded.sound := ⟨rfl, rfl⟩
  have hr : ∀ k, 0x100000 ≤ k → k < 0x100000 + recordSize → recorded.reachable 0 k = true := by
    intro k _ h2
    have : k / 2 ^ 56 = 0 := by unfold recordSize at h2; omega
    unfold State.reachable; simp only [this]; rfl
  have hn := State.readNat_cells hs recorded_fwd (saveRecord [0]) 0x100000 [] (by simp) rfl
  rw [saveRecord_length] at hn
  rw [State.records_sound hs restoring 0x100000 0 [] hr, hn]

/-- Preemption: a restore that succeeds. -/
theorem witness_restore :
    recorded.findWork 1 = some restoring ∧ recorded.regions = [] ∧ recorded.power = [] ∧ recorded.entering = [] ∧ recorded.present 2 = true ∧
    (∃ x s', recorded.records restoring [⟨0x100000, recordSize, .home, 0, []⟩] 1 = ([x], s') ∧ digestOk x = true ∧
      s'.findSaved x = some savedCore ∧ s'.quiescent 2 = true ∧ savedCore.core.mode = (s'.core 2).mode ∧
      savedCore.live.length ≤ ((List.range (contexts savedCore.core.mode)).filter (fun j => (s'.threadAt 2 j).slot == .empty)).length) := by
  refine ⟨by decide +kernel, rfl, rfl, rfl, by decide +kernel, bytesNat (saveRecord [0]), recorded, recorded_reads, digestOk_saveRecord _, ?_,
    by decide +kernel, by decide +kernel, by decide +kernel⟩
  simp [State.findSaved, recorded, savedCore]

/-- Boot: an image of one byte that is accepted, if its signature is one of its key: the fuses hold the digest of that key. -/
def image : List Byte :=
  [0x21, 0x54, 0x49, 0x4C] ++ List.replicate 4 0 ++ [1] ++ List.replicate 248 0

/-- R295: the fields of that image, and of its fuses, are as an accepted one has them. -/
theorem witness_image : image.length = 257 ∧ fieldOf image 3 0 = 0x4C495421 ∧ fieldOf image 15 8 = 1 ∧ fieldOf image 16 16 = 0 ∧
    fieldOf image 63 17 = 0 ∧ fieldOf image 255 235 = 0 := by decide +kernel

theorem witness_image_accepted (h : Config.ed448Verify ((image.drop 178).take 57) (imageDigest image) ((image.drop 64).take 114) = true) :
    ({ plain with fuses := vset plain.fuses 0 (some (Config.shake256 ((image.drop 178).take 57) 64)) } : State).imageOk image = true := by
  have w := witness_image
  simp only [State.imageOk, w.1, w.2.1, w.2.2.1, w.2.2.2.1, w.2.2.2.2.1, w.2.2.2.2.2, h]
  simp [vget, vset]
  decide

/-! ## States without errors, and states with them -/

/-- MatrixCommands, TensorIssue, GraphInstructions, TranslationEvents, Preemption, AddressChecks, PrefetchesAndFences, Copies: nothing holds an
error, and no walk meets a sector, a region or an error. -/
theorem witness_calm : plain.errorFree ∧ plain.walksClear ∧ plain.regions = [] ∧ plain.distinct ∧ plain.bad = [] ∧ plain.soft = [] ∧
    plain.dirtySoft = [] ∧ plain.parity = [] ∧ plain.dirtyBad = [] ∧ plain.moved = [] ∧ plain.forwards = [] := by
  refine ⟨⟨rfl, rfl, rfl, rfl⟩, ⟨rfl, rfl, rfl⟩, rfl, ?_, rfl, rfl, rfl, rfl, rfl, rfl, rfl⟩
  show ([] : List Nat).Nodup
  simp

/-- LoadsAndStores: bytes that an earlier handle command of the thread reads and writes. -/
theorem witness_held :
    let w : Work := { plain.item (controllerHome 0) [] false (.handle (.free 5) none) with holds := [(scratchKey 0 0, 64, true)] }
    let s := plain.addWork w
    s.held (cell 0 8).key 8 false = true ∧ s.held (cell 56 8).key 8 true = true ∧ s.held (cell 64 8).key 8 true = false ∧
    s.checkAddr (at0 0) 8 rawWindows true { r := true } false = (.ok (cell 0 8), s) := by decide +kernel

/-- LoadPerformed: a load of bytes 8 to 15 of a sector that serves them, marked and filled, of one that does not, and of one with a
write-back on its way. -/
theorem witness_load_cached :
    let a : Access := ⟨72, 8, .cached, 72, []⟩
    let b : Body := .load [a] 0 0 none (.s 5) .zero
    let h := cacheHome 72
    let marked : Sector := { key := 64, mask := 0xFF00, writers := 1 }
    let filled : Sector := { key := 64, fill := true, filled := 3 }
    let other : Sector := { key := 64, mask := 0xFF, writers := 1 }
    let caching (x : Sector) : State := plain.setCluster 0 { plain.cluster 0 with sectors := [x] }
    let back : State := plain.addWork (plain.item 0x10000 [] false (.writeBack 0 64 0 1 1 []))
    ([plain, caching marked, caching filled, caching other, caching { key := 64, mask := 0xFF00, writers := 1 }].all fun s =>
      ready (flying s h b) 1 (flown s h b) && !(flying s h b).inRegion (a.key / 64 * 64) 64 && (flying s h b).arrives 0 h a.key &&
        (flying s h b).writeBacksAt 0 a.key == [] &&
        ((flying s h b).before (flown s h b)).all (fun x => !x.blocks { flown s h b with home := s.homeOf 0 a.key })) = true ∧
    marked.serves (byteMask 8 8) 0 = true ∧ filled.serves (byteMask 8 8) 3 = true ∧ filled.serves (byteMask 8 8) 4 = false ∧
    other.serves (byteMask 8 8) 0 = false ∧ (plain.cluster 0).sector 72 = none ∧ ((caching other).cluster 0).sector 72 = some other ∧
    marked.bad = 0 ∧ filled.bad = 0 ∧ other.bad = 0 ∧ 0 < a.n ∧ a.key % 64 + a.n ≤ 64 ∧
    (let f := back.addWork (back.item h [] false b)
     f.writeBacksAt 0 72 = [1] ∧ ready f 2 { back.item h [] false b with id := 2 } = true) := by decide +kernel

/-- FullEmpty: an access that comes before an earlier store of its thread to the word has been performed. -/
theorem witness_full_empty_behind :
    let x := plain.addWork (plain.item 0x10000 [9] false (.store (cell 8 8) 1 255))
    let s : State := { x with tick := x.tick + 1 }
    let b : Body := .fe .ldFe (cell 8 8) (.s 5) 0
    let w : Work := { s.item 0x10000 [] true b with id := 2 }
    let t := s.addWork (s.item 0x10000 [] true b)
    ready t 2 w = true ∧ t.gone w.deps = true ∧ t.work.all (fun y => y.arrived.isNone) = true ∧ (t.threadAt 0 0).halting = false ∧
    t.work.all (fun y => !(y.issuedBefore w && y.request && !y.isFe && y.body.accesses && y.touches (cell 8 8).key 8)) = false := by decide +kernel

/-- BarriersAndMonitors: a wait that the barrier holds, with an operation that arrives; and a registration whose path is lost. -/
theorem witness_held_wait :
    let t : Thread := { thread 0 [] with pend := .wait 70 [1] }
    let acc : Access := { cell 0 16 with n := 16 }
    let y : Work := { flown (one t) 0x10000 (.bar 3 acc 1) with id := 7, slot := 3, arrived := some 1 }
    let s := flying (one t) 0x10000 (.bar 0 acc 5)
    let u : State := { s with work := y :: s.work }
    ready u 1 (flown (one t) 0x10000 (.bar 0 acc 5)) = true ∧ (u.work.map (·.id)).Nodup ∧ y ∈ u.work ∧ y.arrived.isSome = true ∧
    ((1 : Word).toNat % 4096 ≠ (⟨0, 5, 5, 0⟩ : Barrier).phase) ∧
    (let m : Body := .monArm 1 (2 * 2 ^ 56 + 64) []
     let d : State := { flying (one t) 0x30000 m with deadPorts := [0, 1] }
     d.arrives 0 0x30000 (2 * 2 ^ 56 + 64) = false ∧ ready d 1 (flown (one t) 0x30000 m) = true ∧ d.sectorBusy 0 (2 * 2 ^ 56 + 64) = false ∧
     (d.cluster 0).sector (2 * 2 ^ 56 + 64) = none) := by decide +kernel

/-- Returns: results whose data the links have corrected, and spoilt, of a core without error traps; a fetch whose path is lost. -/
theorem witness_spoilt :
    let b : Body := .ret (.s 5) 5 none 0 []
    let s (l : Link) : State := { flying plain 0 b with work := [{ flown plain 0 b with link := l }] }
    ([Link.clean, .corrected, .corrupt].all fun l => decide ((s l).findWork 1 = some { flown plain 0 b with link := l }) &&
      !(s l).etrap 0) = true ∧
    (let d : State := { flying plain 0x30000 (.fetch (2 * 2 ^ 56) []) with deadPorts := [0, 1] }
     d.findWork 1 = some (flown plain 0x30000 (.fetch (2 * 2 ^ 56) [])) ∧ d.arrives 0 0x30000 (2 * 2 ^ 56) = false ∧
     d.readTurn [(2 * 2 ^ 56, 64)] = true ∧ plain.readTurn [(64, 64)] = true ∧ plain.arrives 0 0x20000 64 = true) := by decide +kernel

/-- StorePerformed, UpdateStreams: a store and a pair that a link has spoilt. -/
theorem witness_spoilt_items :
    let b : Body := .store (cell 0 8) 5 255
    let w : Work := { flown plain 0x10000 b with link := .corrupt }
    let s : State := { flying plain 0x10000 b with work := [w] }
    let p : Body := .pair 3 0 1 7 0 0
    let x : Work := { flown plain (channelHome 0) p with link := .corrupt }
    let t : State := { flying plain (channelHome 0) p with work := [x] }
    ready s 1 w = true ∧ (s.arrive w).reaches w (cell 0 8) ∧ s.arrives 0 0x10000 (cell 0 8).key = true ∧ poised t 1 x = true := by
  refine ⟨by decide +kernel, ?_, by decide +kernel, by decide +kernel⟩
  rw [arrive_of_ready (k := 1) (by decide +kernel)]
  exact reaches_of_calm rfl rfl

/-! ## Banks, streams, copies and runs -/

/-- BankUnits: a bk.cvt to BF16 whose one source line gives 32 bytes, and one of three lines from offset 32, which fills line 0 of D with its
first stream and has more to write. -/
theorem witness_narrowing :
    let b (d n line : Nat) (got : List VWord) : Body := .bank 6 d (some (scratchKey 0 0x1000)) 0 0 n 3 false got line 0
    let s (d n line : Nat) (got : List VWord) := flying plain 0x10000 (b (scratchKey 0 d) n line got)
    let ok (d n line : Nat) (got : List VWord) : Bool := decide ((s d n line got).findWork 1 = some (flown plain 0x10000 (b (scratchKey 0 d) n line got))) &&
      (s d n line got).bankFirst (flown plain 0x10000 (b (scratchKey 0 d) n line got)) (scratchKey 0 d)
    let m := 2 * widthOf 3
    (ok 0 1 0 [0] && ok 32 3 0 [0] && ok 32 3 0 [] && ok 0 1 0 []) = true ∧ (fmtOf 3).isSome = true ∧ m = 32 ∧
    (let lo (d line : Nat) := max (scratchKey 0 d) ((scratchKey 0 d / 64 + line) * 64) - scratchKey 0 d
     let hi (d n line : Nat) := min (m * n) ((scratchKey 0 d / 64 + line) * 64 + 64 - scratchKey 0 d)
     lo 0 0 = 0 ∧ hi 0 1 0 = m * 1 ∧ lo 32 0 = 0 ∧ hi 32 3 0 = 32 ∧ hi 32 3 0 ≠ m * 3 ∧ lo 32 1 = 32 ∧ hi 32 3 1 = m * 3 ∧
     ¬ (m * ([0] : List VWord).length < hi 32 3 0) ∧ m * ([] : List VWord).length < hi 32 3 0) := by decide +kernel

/-- UpdateStreams: an unordered region; a pair whose element has one, whose bin is full, with room in the log and without; a record of an
element. -/
theorem witness_spills :
    let r (x : Share) (o : Bool) : Region := { reg x with desc := { (reg x).desc with ordered := o, quota := 1, spill := [4096] } }
    let s (x : Share) (o : Bool) : State := { (withRegs 3 0 3) with tensors := [tens], regions := [r x o] }
    let p : Body := .pair 3 0 1 7 0 0
    let h := channelHome 0
    let held : BinEntry := ⟨1, 7, 0, 0, 1, false, false⟩
    let other : BinEntry := ⟨2, 7, 0, 0, 1, false, false⟩
    let f (x : Share) (o : Bool) : Bool := poised (flying (s x o) h p) 1 (flown (s x o) h p) &&
      !((flying (s x o) h p).ahead (flown (s x o) h p) (r x o) x) && decide ((s x o).region 3 = some (r x o)) && decide ((r x o).share 0 = some x)
    let log (n c : Nat) : Share := { share 0 with bins := [other], log := n, recCount := c }
    (f (share 0) false && f { share 0 with bins := [held] } false && f (log 0 4) false && f (log 3 4) false && f (log 0 4) true && f (log 0 1) true) = true ∧
    (share 0).bins.length < 1 ∧ [held].find? (fun e => e.elem == 1) = some held ∧ (∀ e ∈ [other], e.elem ≠ 1) ∧ 1 ≤ [other].length ∧
    (log 0 4).log + 1 < (log 0 4).recCount ∧ (log 3 4).recCount ≤ (log 3 4).log + 1 ∧ (flown (s (log 3 4) false) h p).arrived = none ∧
    (r (share 0) false).recordKey 0 % 64 + 16 ≤ 64 ∧
    (let x : Share := { share 0 with state := .applying, log := 1, recCount := 4 }
     let t : State := { s x false with mem := [⟨4100, 1⟩, ⟨4111, 0x80⟩] }
     t.region 3 = some (r x false) ∧ (t.readNat ((r x false).recordKey x.recFirst) 16).testBit 127 = true ∧
     bits (t.readNat ((r x false).recordKey x.recFirst) 16) 63 32 < (r x false).desc.count) := by decide +kernel

/-- Copies: a word with an error under a granule; actions on a future that is empty, that is resolved and that is lost, and on a barrier; a
STATUS with its FADDR. -/
theorem witness_copy_actions :
    let fut : Access := ⟨scratchKey 0 64, 16, .scratch, at0 64, []⟩
    let far : Access := ⟨2 * 2 ^ 56 + 64, 16, .home, 64, []⟩
    let job (p act : Nat) (a : Option Access) : CopyJob := ⟨.linear, 0, 1, [], p, act, 0, a, 64, 0, scratchKey 0 0, some (scratchKey 0 8), 5, 0, 0, false, 0, 0, 0, []⟩
    let f (j : CopyJob) : Bool := decide ((flying plain 0x20000 (.copy j)).findWork 1 = some (flown plain 0x20000 (.copy j))) &&
      (flying plain 0x20000 (.copy j)).clear (flown plain 0x20000 (.copy j)) && !(flying plain 0x20000 (.copy j)).holdsRanges (flown plain 0x20000 (.copy j)) j.ranges
    let done : State := { plain with mem := [⟨scratchKey 0 64, 2⟩] }
    (f (job 1 1 (some fut)) && f (job 1 1 (some far)) && f (job 1 2 (some fut)) && f (job 2 0 none)) = true ∧
    plain.reachable 0 fut.key = true ∧ ({ plain with deadPorts := [0, 1] } : State).reachable 0 far.key = false ∧ plain.sharesFree none = true ∧
    plain.readNat fut.key 16 % 4 < 2 ∧ bits (plain.readNat fut.key 16) 13 2 = 0 ∧ 2 ≤ (done.touch fut.key).readNat fut.key 16 % 4 ∧
    (job 2 0 none).faddr = some ((job 2 0 none).status + 8) ∧ fut.via = .scratch ∧
    (let s : State := { plain with bad := [scratchKey 0 8 / 8] }
     s.bad.contains ((scratchKey 0 0 + 8) / 8) = true ∧ (List.range 8).all (fun h => !s.bad.contains ((scratchKey 0 0 + h) / 8)) = true) := by
  decide +kernel

/-- RecordAndLeaseEvents: a run of two FP32 elements from key 64 on, in place, and one whose source lies apart. -/
theorem witness_run_elements :
    let a (k : Nat) : Access := ⟨k, 8, .home, BitVec.ofNat 64 k, []⟩
    let run (src : List Access) : PhraseRun := ⟨9, 1, [a 64], src, [], 2, 1, ⟨[0x10, 0x70], 1, [], 0, 0⟩⟩
    let at_ (r : List Access) (j : Nat) : Nat := (pieceAt r (j * 4) 4).key
    (fmtOf 1).isSome = true ∧ widthOf 1 / 8 = 4 ∧
    ((List.range 2).all fun j => [(run []).dst, (run [a 128]).src1].all fun r => plain.reachable 0 (at_ r j)) = true ∧
    at_ (run []).dst 0 + 4 ≤ at_ (run []).dst 1 ∧ at_ (run [a 128]).dst 0 + 4 ≤ at_ (run [a 128]).src1 1 ∧
    (let l : PhraseLease := ⟨9, 0, 0, 2, 1, 0, false⟩
     let u := flying { plain with phraseLeases := [l] } (channelHome 0) (.phRun (run [a 128]))
     u.findWork 1 = some (flown plain (channelHome 0) (.phRun (run [a 128]))) ∧ u.phraseLease 9 = some l ∧
       u.clear (flown plain (channelHome 0) (.phRun (run [a 128]))) = true) := by decide +kernel

/-! ## Fetching -/

/-- StepRunsDecoded: an address beyond the global ones, one without a translation, a block that a thread runs through, one that its cache
holds, and one that no cache holds. -/
theorem witness_fetches :
    let tr : Trans := ⟨0, true, 0, 0x2000, 0x3F⟩
    let s := plain.setMe { plain.me with itlb := [tr] }
    let walk (u : State) := u.translate 0 u.thread.asid.toNat u.thread.pgroot.toNat (!(u.thread.priv || u.thread.hm)) true 0x1000 { x := true }
    let key := tr.keyOf 0x1000
    let held := s.setMe { s.me with icache := [(key / 64 * 64, 5)] }
    let lined := s.setThread { s.thread with line := some (key / 64 * 64, 5) }
    (0x0100000000000000 : Word).toNat / 2 ^ 56 ≠ 0 ∧ (0x1000 : Word).toNat / 2 ^ 56 = 0 ∧
    (match (walk plain).1 with | .ok _ => false | .error _ => true) = true ∧ (walk s).1 = .ok tr ∧ (walk held).1 = .ok tr ∧ (walk lined).1 = .ok tr ∧
    (walk lined).2.thread.line = some (key / 64 * 64, 5) ∧ (walk held).2.thread.line = none ∧ (walk held).2.sched = [] ∧ (walk held).2.iparity = [] ∧
    heldBlock (walk held).2.me.icache (key / 64 * 64) = some 5 ∧ (walk s).2.thread.line = none ∧
    ((walk s).2.levels.all fun l => (heldBlock l.2 (key / 64 * 64)).isNone) = true ∧ s.thread.latch = [] := by decide +kernel
end Sys2Proof.Tests
end

section
/-! # Scalar integer instructions on registers: what they write or send, and O2. -/

namespace Sys2Proof.Machine

open Sys2Proof

/-! ## Quotients and remainders (R94) -/

/-- The wrap of the most negative number by −1 is the library's `sdiv`: both take the truncated quotient modulo 2^64. -/
theorem sdiv_eq (x y : Word) : sdiv x y = if y = 0 then BitVec.allOnes 64 else x.sdiv y := by
  have h : BitVec.ofInt 64 (x.toInt.tdiv y.toInt) = x.sdiv y :=
    BitVec.eq_of_toInt_eq (by rw [BitVec.toInt_ofInt, BitVec.toInt_sdiv])
  rw [sdiv, h]

theorem udiv_eq (x y : Word) : udiv x y = if y = 0 then BitVec.allOnes 64 else x.udiv y := by
  rw [udiv, ← BitVec.udiv_def, BitVec.udiv_eq]

theorem srem_eq (x y : Word) : srem x y = if y = 0 then x else x.srem y := by
  rw [srem, ← BitVec.toInt_srem, BitVec.ofInt_toInt]

theorem urem_eq (x y : Word) : urem x y = if y = 0 then x else x.umod y := by
  rw [urem, ← BitVec.umod_def, BitVec.umod_eq]

/-! ## Items that an instruction sends -/

theorem dstS_register {s : State} {d : Opd} (h : d.isQueue = false) : s.dstS d = (dstOf d, s) := by
  unfold State.dstS dstOf
  rw [h]
  by_cases hd : d = 0
  · rw [if_pos hd, if_pos hd]; rfl
  · rw [if_neg hd, if_neg hd]; rfl

/-- A result that is long latency is an item on its way back (R24). -/
theorem resultS_register_long {s : State} {d : Opd} (x : Word) (h : d.isQueue = false) :
    s.resultS d x true = s.addWork (s.returning (dstOf d) (x.setWidth 512)) := by
  simp only [State.resultS, dstS_register h]
  rfl

/-- Sending an item leaves the thread that goes on as it is. -/
theorem after_addWork (s : State) (w : Work) : (s.addWork w).after = s.after := rfl

theorem onlySends_addWork (s : State) (w : Work) (x : Thread) (r : IssueResult) :
    OnlySends s { (s.addWork w).setThread x with last := r } [w] :=
  ⟨rfl, (onlyThread_setThread s x r).2⟩

/-- An item sent, completed. -/
theorem sends_of_eq {i : Instr} {s : State} {w : Work} (hp : s.placed) (h : exec i s = .next (s.addWork w).complete) :
    Sends i s [w] id := by
  rw [complete_eq, after_addWork] at h
  exact ⟨_, h, rfl, onlySends_addWork .., State.thread_setThread (s.addWork w) _ hp⟩

/-! ## The shapes of the scalar instructions, on registers -/

/-- Scalar operands that are registers pass every check: none is a vector beyond the mode and none waits for a queue. -/
theorem withOperands_scalar {us : List Use} {s : State} (k : State → Out) (h : noQueue us)
    (hs : us.all (fun u => u.pos != .vector) = true) : withOperands us s k = k s :=
  withOperands_noQueue k h (beyondMode_scalar _ hs)

theorem unary_registers {s : State} {d a : Opd} (f : Word → Word) (hr : registers [d, a]) :
    unary d a f s = .next (s.resultS d (f (s.scalar a)) false).complete := by
  simp only [registers_cons, registers_nil, and_true] at hr
  obtain ⟨hd, ha⟩ := hr
  have hq : noQueue [⟨.scalar, .dst, d⟩, ⟨.scalar, .src, a⟩] := by simp [noQueue, hd, ha]
  simp only [unary, withOperands_scalar _ hq rfl, popsAny_noQueue hq, readS_register ha]

theorem binary_registers {s : State} {d a b : Opd} (long : Bool) (f : Word → Word → Word) (hr : registers [d, a, b]) :
    binary d a b long f s = .next (s.resultS d (f (s.scalar a) (s.scalar b)) long).complete := by
  simp only [registers_cons, registers_nil, and_true] at hr
  obtain ⟨hd, ha, hb⟩ := hr
  have hq : noQueue [⟨.scalar, .dst, d⟩, ⟨.scalar, .src, a⟩, ⟨.scalar, .src, b⟩] := by simp [noQueue, hd, ha, hb]
  simp only [binary, withOperands_scalar _ hq rfl, popsAny_noQueue hq, readS_register ha, readS_register hb, Bool.or_false]

theorem execSel_registers {s : State} {d a b c : Opd} (hr : registers [d, a, b, c]) :
    execSel d a b c s = .next (s.resultS d (if s.scalar c = 0 then s.scalar b else s.scalar a) false).complete := by
  simp only [registers_cons, registers_nil, and_true] at hr
  obtain ⟨hd, ha, hb, hc⟩ := hr
  have hq : noQueue [⟨.scalar, .dst, d⟩, ⟨.scalar, .src, a⟩, ⟨.scalar, .src, b⟩, ⟨.scalar, .src, c⟩] := by
    simp [noQueue, hd, ha, hb, hc]
  simp only [execSel, withOperands_scalar _ hq rfl, popsAny_noQueue hq, readS_register ha, readS_register hb, readS_register hc]

theorem execMovi_register {s : State} {d : Opd} (hw : BitVec 2) (x : BitVec 16) (hd : d.isQueue = false) :
    execMovi d hw x s = .next (s.resultS d (halfword x hw) false).complete := by
  have hq : noQueue [⟨.scalar, .dst, d⟩] := by simp [noQueue, hd]
  simp only [execMovi, withOperands_scalar _ hq rfl]

theorem execMovk_register {s : State} {d : Opd} (hw : BitVec 2) (x : BitVec 16) (hd : d.isQueue = false) :
    execMovk d hw x s = .next (s.resultS d ((s.scalar d &&& ~~~(halfword 0xFFFF hw)) ||| halfword x hw) false).complete := by
  simp only [execMovk, readS_register hd]

/-! ## What those shapes write and send -/

/-- A scalar result written at once, completed. -/
theorem writesScalar_of_result {i : Instr} {s : State} {d : Opd} {x : Word} (hp : s.placed) (hd : d.isQueue = false)
    (h : exec i s = .next (s.resultS d x false).complete) : WritesScalar i s d x :=
  writes_of_eq hp (passes_withScalar d x) (by rw [h, resultS_register x hd])

theorem writesScalar_of_unary {i : Instr} {s : State} {d a : Opd} {f : Word → Word} (hp : s.placed) (hr : registers [d, a])
    (h : exec i s = unary d a f s) : WritesScalar i s d (f (s.scalar a)) :=
  writesScalar_of_result hp (registers_cons.1 hr).1 (h.trans (unary_registers f hr))

/-- A long-latency result of two registers is sent back, and nothing is written yet (R24). -/
theorem sends_of_binary_long {i : Instr} {s : State} {d a b : Opd} {f : Word → Word → Word} (hp : s.placed)
    (hr : registers [d, a, b]) (h : exec i s = binary d a b true f s) :
    Sends i s [s.returning (dstOf d) ((f (s.scalar a) (s.scalar b)).setWidth 512)] id :=
  sends_of_eq hp (by rw [h, binary_registers true f hr, resultS_register_long _ (registers_cons.1 hr).1])

/-! ## O2 -/

/-- Settles O2: the four divisions send what the model's quotients and remainders are by `sdiv_eq` and its companions; select,
immediates and moves write what their shapes give on registers. -/
theorem divisionAndImmediateResults : Obligations.DivisionAndImmediateResults := by
  refine ⟨fun s d a b hp hr => ?divisions, fun s d a b c i hw x hp hr => ?_⟩
  case divisions =>
    simp only [← sdiv_eq, ← udiv_eq, ← srem_eq, ← urem_eq]
    exact ⟨sends_of_binary_long hp hr (exec_div d a b s), sends_of_binary_long hp hr (exec_divu d a b s),
      sends_of_binary_long hp hr (exec_rem d a b s), sends_of_binary_long hp hr (exec_remu d a b s)⟩
  obtain ⟨hd, habc⟩ := registers_cons.1 hr
  have hda : registers [d, a] := by
    simp only [registers_cons, registers_nil, hd, (registers_cons.1 habc).1, and_self]
  refine ⟨?sel, ?addi, ?andi, ?ori, ?xori, ?movi, ?movk⟩
  case sel => exact writesScalar_of_result hp hd ((exec_sel d a b c s).trans (execSel_registers hr))
  case addi => exact writesScalar_of_unary hp hda (exec_addi d a i s)
  case andi => exact writesScalar_of_unary hp hda (exec_andi d a i s)
  case ori => exact writesScalar_of_unary hp hda (exec_ori d a i s)
  case xori => exact writesScalar_of_unary hp hda (exec_xori d a i s)
  case movi => exact writesScalar_of_result hp hd ((exec_movi d hw x s).trans (execMovi_register hw x hd))
  case movk => exact writesScalar_of_result hp hd ((exec_movk d hw x s).trans (execMovk_register hw x hd))

end Sys2Proof.Machine
end

section
/-! # UNREAD over reads and writes of control registers, and O43. -/

namespace Sys2Proof.Machine

open Sys2Proof

/-! ## The UNREAD bits of a state -/

/-- What decides whether the acting thread has a trap unread: which thread acts, and every slot's UNREAD (R116). All slots stand here,
so that an update of any core is checked without asking whose it is. -/
def State.unreads (s : State) : Nat × Nat × (Nat → Nat → Bool) :=
  (s.curCore, s.curSlot, fun c k => (s.threadAt c k).unread)

theorem unread_of_unreads {s t : State} (h : t.unreads = s.unreads) : t.thread.unread = s.thread.unread := by
  simp only [State.unreads, Prod.mk.injEq] at h
  obtain ⟨hc, hk, hu⟩ := h
  simpa only [State.thread, hc, hk] using congrFun (congrFun hu s.curCore) s.curSlot

/-- States with the same cores and the same acting thread have the same UNREAD bits. -/
theorem unreads_congr {s t : State} (hc : t.curCore = s.curCore) (hk : t.curSlot = s.curSlot) (h : t.cores = s.cores) :
    t.unreads = s.unreads := by
  simp only [State.unreads, State.threadAt, State.core, hc, hk, h]

/-- The state that a step of a computation hands on. -/
theorem unreads_of_eq {α : Type} {p : α × State} {a : α} {s t : State} (h : p = (a, t)) (hp : p.2.unreads = s.unreads) :
    t.unreads = s.unreads := by
  subst h; exact hp

theorem State.setCore_unreads (s : State) (c : Nat) {x : Core} (h : ∀ k, (x.thread k).unread = ((s.core c).thread k).unread) :
    (s.setCore c x).unreads = s.unreads := by
  have hall : ∀ d k, ((s.setCore c x).threadAt d k).unread = (s.threadAt d k).unread := by
    intro d k
    by_cases hd : d = c
    · subst hd; simpa only [State.threadAt, State.core_setCore] using h k
    · simp only [State.threadAt, State.core_setCore_other s x hd]
  simp only [State.unreads, State.setCore_curCore, State.setCore_curSlot, hall]

theorem Core.setThread_unread (c : Core) (k : Nat) {x : Thread} (h : x.unread = (c.thread k).unread) (j : Nat) :
    ((c.setThread k x).thread j).unread = (c.thread j).unread := by
  by_cases hj : j = k
  · subst hj
    by_cases hl : j < 16
    · rw [Core.thread_setThread _ _ hl, h]
    · simp only [Core.thread, vget_default _ _ hl]
  · rw [Core.thread_setThread_other _ _ hj]

theorem State.setThreadAt_unreads (s : State) (c k : Nat) {x : Thread} (h : x.unread = (s.threadAt c k).unread) :
    (s.setThreadAt c k x).unreads = s.unreads :=
  s.setCore_unreads c (Core.setThread_unread _ k h)

theorem State.setThread_unreads (s : State) {x : Thread} (h : x.unread = s.thread.unread) : (s.setThread x).unreads = s.unreads :=
  s.setThreadAt_unreads _ _ h

theorem State.setMe_unreads (s : State) {x : Core} (h : x.threads = s.me.threads) : (s.setMe x).unreads = s.unreads :=
  s.setCore_unreads _ (fun k => by simp only [Core.thread, h]; rfl)

/-- A map over a core's threads that leaves UNREAD alone. -/
theorem Core.mapThreads_unread (c : Core) {f : Thread → Thread} (h : ∀ t, (f t).unread = t.unread) (k : Nat) :
    (({ c with threads := c.threads.map f } : Core).thread k).unread = (c.thread k).unread := by
  by_cases hk : k < 16 <;> simp [Core.thread, vget, hk, h]

@[simp] theorem State.setCluster_unreads (s : State) (c : Nat) (x : Cluster) : (s.setCluster c x).unreads = s.unreads := rfl
@[simp] theorem State.setDie_unreads (s : State) (d : Nat) (x : Die) : (s.setDie d x).unreads = s.unreads := rfl
@[simp] theorem State.setPartAt_unreads (s : State) (c : Nat) (x : Partition) : (s.setPartAt c x).unreads = s.unreads := rfl
@[simp] theorem State.setArray_unreads (s : State) (c : Nat) (x : Array_) : (s.setArray c x).unreads = s.unreads := rfl
@[simp] theorem State.addWork_unreads (s : State) (w : Work) : (s.addWork w).unreads = s.unreads := rfl
@[simp] theorem State.send_unreads (s : State) (home : Nat) (deps : List Nat) (acquire : Bool) (body : Body) :
    (s.send home deps acquire body).unreads = s.unreads := rfl

/-- A loop whose steps leave the UNREAD bits alone leaves them alone. -/
theorem foldl_unreads {α : Type} {f : State → α → State} (hf : ∀ s a, (f s a).unreads = s.unreads) (l : List α) (s : State) :
    (l.foldl f s).unreads = s.unreads :=
  foldl_keeps (fun t => t.unreads = s.unreads) f (fun t a ht => (hf t a).trans ht) l s rfl

/-! ## How an instruction ends -/

@[simp] theorem State.complete_unreads (s : State) : s.complete.unreads = s.unreads := by
  rw [complete_eq]; exact s.setThread_unreads rfl

@[simp] theorem State.parkWith_unreads (s : State) (p : Pend) : (s.parkWith p).unreads = s.unreads := s.setThread_unreads rfl

@[simp] theorem State.park_unreads (s : State) : s.park.unreads = s.unreads := s.parkWith_unreads _

theorem State.errorsOf_unreads {s s0 : State} (h : s.unreads = s0.unreads) : (s.errorsOf s0).unreads = s0.unreads := by
  unfold State.errorsOf State.backTo
  split
  · rfl
  · have hme := s.setMe_unreads (x := { s.me with queues := s0.me.queues }) rfl
    rw [State.setThread_unreads _ ((unread_of_unreads h).symm.trans (unread_of_unreads hme).symm), hme, h]

theorem State.readFrom_unreads {s s0 : State} (h : s.unreads = s0.unreads) : (s.readFrom s0).unreads = s0.unreads := by
  unfold State.readFrom
  split
  · exact errorsOf_unreads h
  · rw [State.setThread_unreads _ (by rfl), errorsOf_unreads h]

/-! ## Operands -/

@[simp] theorem State.pop_unreads (s : State) (k : Nat) : (s.pop k).2.unreads = s.unreads := by
  unfold State.pop
  split
  · rfl
  · dsimp only
    rw [State.setThread_unreads _ (by rfl), State.setMe_unreads _ (by rfl)]

@[simp] theorem State.append_unreads (s : State) (k missing : Nat) (x : VWord) : (s.append k missing x).2.unreads = s.unreads :=
  s.setMe_unreads rfl

@[simp] theorem State.push_unreads (s : State) (k missing : Nat) (x : VWord) : (s.push k missing x).2.unreads = s.unreads := by
  unfold State.push
  split
  · exact s.append_unreads k missing x
  · dsimp only
    rw [State.setThread_unreads _ (by rfl), State.setMe_unreads _ (by rfl)]

@[simp] theorem State.readS_unreads (s : State) (f : Opd) : (s.readS f).2.unreads = s.unreads := by
  unfold State.readS
  split
  · exact s.pop_unreads _
  · split <;> rfl

/-- A result that returns later. -/
@[simp] theorem State.resultS_long_unreads (s : State) (f : Opd) (x : Word) : (s.resultS f x true).unreads = s.unreads := by
  have hd : (s.dstS f).2.unreads = s.unreads := by
    unfold State.dstS
    split
    · exact s.push_unreads _ _ _
    · split <;> rfl
  exact hd

/-! ## Errors counted, corrected and repaired (R122) -/

@[simp] theorem State.countUnc_unreads (s : State) (core n : Nat) : (s.countUnc core n).unreads = s.unreads := by
  unfold State.countUnc
  split
  · rfl
  · exact s.setCore_unreads core (fun _ => rfl)

@[simp] theorem State.countCorr_unreads (s : State) (core n : Nat) : (s.countCorr core n).unreads = s.unreads := by
  unfold State.countCorr
  split
  · rfl
  · exact s.setCore_unreads core (fun _ => rfl)

@[simp] theorem State.countEvent_unreads (s : State) (core ev n : Nat) : (s.countEvent core ev n).unreads = s.unreads := by
  unfold State.countEvent
  dsimp only
  split
  · rfl
  · exact s.setCore_unreads core (fun _ => rfl)

@[simp] theorem State.correct_unreads (s : State) (core : Nat) (words : List Nat) : (s.correct core words).unreads = s.unreads := by
  unfold State.correct
  split
  · rfl
  · exact s.countCorr_unreads core _

@[simp] theorem State.correctDirty_unreads (s : State) (core cluster key : Nat) (words : List Nat) :
    (s.correctDirty core cluster key words).unreads = s.unreads := by
  unfold State.correctDirty
  split
  · rfl
  · exact s.countCorr_unreads core _

@[simp] theorem State.scrub_unreads (s : State) (words : List Nat) : (s.scrub words).unreads = s.unreads := by
  unfold State.scrub
  split
  · rfl
  · exact foldl_unreads (fun s w => by split <;> rfl) words s

@[simp] theorem State.readWords_unreads (s : State) (core : Nat) (words : List Nat) : (s.readWords core words).unreads = s.unreads := by
  unfold State.readWords
  split
  · rfl
  · simp only [State.scrub_unreads, State.correct_unreads, State.countUnc_unreads]

@[simp] theorem State.readHome_unreads (s : State) (core key n : Nat) : (s.readHome core key n).2.2.unreads = s.unreads :=
  s.readWords_unreads core _

@[simp] theorem State.forgetDirty_unreads (s : State) (cluster key : Nat) (words : List Nat) :
    (s.forgetDirty cluster key words).unreads = s.unreads := by
  unfold State.forgetDirty
  dsimp only
  split <;> rfl

@[simp] theorem State.emptySector_unreads (s : State) (cluster key : Nat) : (s.emptySector cluster key).unreads = s.unreads :=
  State.forgetDirty_unreads ..

/-! ## Channels woken (R300) -/

@[simp] theorem State.touch_unreads (s : State) (key : Nat) : (s.touch key).unreads = s.unreads := by
  unfold State.touch State.touchChannel
  split
  · split <;> rfl
  · rfl

@[simp] theorem State.touchRange_unreads (s : State) (key n : Nat) : (s.touchRange key n).unreads = s.unreads := by
  unfold State.touchRange
  split
  · rfl
  · refine foldl_unreads (fun s i => ?_) _ s
    split
    · exact s.touch_unreads _
    · rfl

/-! ## Sectors filled, served and written back (R193-R196) -/

@[simp] theorem State.fillSector_unreads (s : State) (core key : Nat) (trans : List Trans) :
    (s.fillSector core key trans).unreads = s.unreads :=
  (State.correct_unreads (s.touch key) core _).trans (s.touch_unreads key)

@[simp] theorem State.serve_unreads (s : State) (core : Nat) (x : Sector) (m : BitVec 64) : (s.serve core x m).2.2.unreads = s.unreads := by
  simp only [State.serve, State.correctDirty_unreads, State.countUnc_unreads]

@[simp] theorem State.startWriteBack_unreads (s : State) (cluster : Nat) (x : Sector) : (s.startWriteBack cluster x).unreads = s.unreads := by
  unfold State.startWriteBack
  split
  · rfl
  · simp only [State.setCluster_unreads, State.addWork_unreads, State.forgetDirty_unreads, State.correctDirty_unreads]

@[simp] theorem State.settleSector_unreads (s : State) (core key : Nat) : (s.settleSector core key).unreads = s.unreads := by
  unfold State.settleSector
  dsimp only
  split
  · simp only [State.emptySector_unreads, State.startWriteBack_unreads]
  · rfl

@[simp] theorem State.sectorFor_unreads (s : State) (core slot : Nat) (a : Access) : (s.sectorFor core slot a).2.unreads = s.unreads := by
  unfold State.sectorFor
  dsimp only
  split
  · rfl
  · rw [State.fillSector_unreads, State.countEvent_unreads]
    split
    · exact s.countCorr_unreads core 1
    · rfl

@[simp] theorem State.loadPart_unreads (s : State) (core slot home : Nat) (a : Access) :
    (s.loadPart core slot home a).2.2.unreads = s.unreads := by
  unfold State.loadPart
  split
  · exact s.countUnc_unreads core _
  · split
    · exact (State.serve_unreads ..).trans (s.sectorFor_unreads core slot a)
    · exact s.readHome_unreads core _ _

/-! ## Bytes written at their homes -/

@[simp] theorem State.writeWords_unreads (s : State) (key n mask : Nat) : (s.writeWords key n mask).unreads = s.unreads := by
  unfold State.writeWords
  split
  · rfl
  · dsimp only
    split
    · exact State.readWords_unreads ..
    · rfl

/-- A write hits monitors: of a thread it changes these alone (R143). -/
@[simp] theorem State.monitorWrite_unreads (s : State) (key n : Nat) : (s.monitorWrite key n).unreads = s.unreads := by
  unfold State.monitorWrite
  refine foldl_unreads (fun s ic => ?_) _ s
  split
  · exact s.setCore_unreads ic.1 (Core.mapThreads_unread _ (fun _ => rfl))
  · rfl

/-- A write that a barrier's waiter waits for answers it: of its thread it changes what that waits for. -/
@[simp] theorem State.barrierWrite_unreads (s : State) (key n : Nat) : (s.barrierWrite key n).unreads = s.unreads := by
  unfold State.barrierWrite
  refine foldl_unreads (fun s w => ?_) _ s
  split
  · dsimp only
    split
    · exact State.setThreadAt_unreads (s.dropWork w.id) w.core w.slot rfl
    · rfl
  · rfl

@[simp] theorem State.writeHome_unreads (s : State) (key n data mask : Nat) : (s.writeHome key n data mask).unreads = s.unreads := by
  unfold State.writeHome
  simp only [State.barrierWrite_unreads, State.monitorWrite_unreads]
  exact s.writeWords_unreads _ _ _

@[simp] theorem State.writeBytes_unreads (s : State) (key n data mask : Nat) : (s.writeBytes key n data mask).unreads = s.unreads :=
  foldl_unreads (fun s _ => s.writeHome_unreads _ _ _ _) _ s

/-! ## Applications performed for a read (R239) -/

@[simp] theorem State.onTensor_unreads (s : State) (h : Nat) (f : Tensor → Tensor) : (s.onTensor h f).unreads = s.unreads := by
  unfold State.onTensor; split <;> rfl

@[simp] theorem State.setCode_unreads (s : State) (h i c : Nat) : (s.setCode h i c).unreads = s.unreads := by
  unfold State.setCode
  split
  · rfl
  · split
    · rfl
    · exact foldl_unreads (fun s _ => s.writeHome_unreads _ _ _ _) _ s

@[simp] theorem State.applyElem_unreads (s : State) (r : Region) (f : Fmt) (t : Tensor) (elem : Nat) (es : List (BinEntry × Val)) :
    (s.applyElem r f t elem es).unreads = s.unreads := by
  unfold State.applyElem State.stick
  split
  · rfl
  · simp only [State.onTensor_unreads, State.setCode_unreads]

@[simp] theorem State.applyShare_unreads (s : State) (r : Region) (x : Share) : (s.applyShare r x).unreads = s.unreads := by
  unfold State.applyShare
  split
  · rfl
  · exact (foldl_unreads (fun s _ => s.writeBytes_unreads _ _ _ _) _ _).trans (foldl_unreads (fun s _ => s.applyElem_unreads _ _ _ _ _) _ s)

/-- A timeline that moves on wakes its waiters: of a thread it changes what that waits for. -/
@[simp] theorem State.wakeTimeline_unreads (s : State) (kind id value : Nat) : (s.wakeTimeline kind id value).unreads = s.unreads := by
  have h : ∀ (wake : Thread → Thread), (∀ t, (wake t).unread = t.unread) → ∀ (l : List (Nat × Core)) (c k : Nat),
      ((sget (l.map (fun (c : Nat × Core) => (c.1, { c.2 with threads := c.2.threads.map wake }))) c {}).thread k).unread =
        ((sget l c {}).thread k).unread := by
    intro wake hw l c k
    induction l with
    | nil => rfl
    | cons p r ih =>
      simp only [List.map_cons, sget]
      split
      · exact Core.mapThreads_unread _ hw k
      · exact ih
  simp only [State.unreads, State.threadAt, State.core, State.wakeTimeline, Prod.mk.injEq, true_and]
  funext c k
  refine h _ (fun t => ?_) s.cores c k
  split
  · split <;> rfl
  · rfl

@[simp] theorem State.endApply_unreads (s : State) (r : Region) (x : Share) : (s.endApply r x).unreads = s.unreads := by
  have happlied (y : Region) : ((s.applyShare r x).setRegion y).unreads = s.unreads := s.applyShare_unreads r x
  unfold State.endApply
  extract_lets lost s1 next done r1 s2 s3 s4
  have hs3 : s3.unreads = s.unreads := by
    simp only [s3]
    split <;> exact happlied r1
  split
  · exact (unreads_congr rfl rfl rfl).trans ((s3.wakeTimeline_unreads ..).trans hs3)
  · exact hs3

@[simp] theorem State.applyNow_unreads (s : State) (ranges : List (Nat × Nat)) : (s.applyNow ranges).unreads = s.unreads := by
  unfold State.applyNow
  refine foldl_unreads (fun s r => foldl_unreads (fun s x => ?_) _ s) _ s
  split
  · split
    · split
      · split
        · rfl
        · extract_lets s1
          have hs1 : s1.unreads = s.unreads := by
            simp only [s1]
            split <;> rfl
          split
          · split
            · exact hs1
            · exact (State.endApply_unreads ..).trans hs1
          · exact hs1
      · rfl
    · rfl
  · rfl

/-! ## Translations (R278) -/

@[simp] theorem State.choose_unreads (s : State) (n : Nat) : (s.choose n).2.unreads = s.unreads := by
  unfold State.choose; split <;> rfl

@[simp] theorem State.readEntry_unreads (s : State) (core at_ : Nat) : (s.readEntry core at_).2.unreads = s.unreads := by
  unfold State.readEntry
  split
  · rfl
  · simp only [State.correct_unreads, State.applyNow_unreads, State.touch_unreads, State.settleSector_unreads]

@[simp] theorem State.readEntries_unreads (s : State) (core at_ n : Nat) : (s.readEntries core at_ n).2.unreads = s.unreads := by
  induction n generalizing s at_ with
  | zero => rfl
  | succ n ih => exact (ih _ _).trans (s.readEntry_unreads core at_)

@[simp] theorem State.combined_unreads (s : State) (core asid va table lvl : Nat) :
    (s.combined core asid va table lvl).2.unreads = s.unreads := by
  unfold State.combined
  split
  · rfl
  split
  next group s1 h1 =>
  have hs1 := unreads_of_eq h1 (s.choose_unreads 2)
  split
  · exact hs1
  extract_lets size
  split
  next l s2 h2 =>
  have hs2 := (unreads_of_eq h2 (s1.readEntries_unreads ..)).trans hs1
  extract_lets leaves
  split
  next c s3 h3 =>
  have hs3 := (unreads_of_eq h3 (s2.choose_unreads _)).trans hs2
  split <;> exact hs3

/-- A walk of a table: one entry is read, then a combination is tried, then the entry is a leaf or names the next table. The functions
it calls are generalized, so that the two sides are compared without running them. -/
theorem State.walkFrom_eq (s : State) (core asid va table lvl : Nat) :
    s.walkFrom core asid va table lvl =
      (let (p, s) := s.readEntry core (table + 8 * (va / pageSize lvl % 512))
       match s.combined core asid va table lvl with
       | (some t, s) => (some t, s)
       | (none, s) =>
         if isLeaf p lvl then (some ⟨asid, p.testBit 5, va / pageSize lvl * pageSize lvl, pageSize lvl, p⟩, s)
         else
           match lvl with
           | 0 => (none, s)
           | n + 1 => if pteOk p && ptePointer p then s.walkFrom core asid va (pteKey p) n else (none, s)) := by
  delta State.walkFrom State.walkFrom._f
  generalize State.readEntry = entry
  generalize State.combined = combine
  cases lvl with
  | zero => rfl
  | succ n => rfl

@[simp] theorem State.walkFrom_unreads (s : State) (core asid va table lvl : Nat) :
    (s.walkFrom core asid va table lvl).2.unreads = s.unreads := by
  induction lvl using Nat.strongRecOn generalizing s table with
  | ind lvl ih =>
    rw [State.walkFrom_eq]
    split
    next p s1 h1 =>
    have hs1 := unreads_of_eq h1 (s.readEntry_unreads ..)
    split
    next h2 => exact (unreads_of_eq h2 (s1.combined_unreads ..)).trans hs1
    next h2 =>
    have hs2 := (unreads_of_eq h2 (s1.combined_unreads ..)).trans hs1
    split
    · exact hs2
    split
    · exact hs2
    next n _ =>
    split
    · exact (ih n (Nat.lt_succ_self n) _ _).trans hs2
    · exact hs2

@[simp] theorem State.walk_unreads (s : State) (core asid root va : Nat) : (s.walk core asid root va).2.unreads = s.unreads := by
  unfold State.walk
  split
  · exact s.walkFrom_unreads core asid va _ 4
  · rfl

@[simp] theorem State.translate_unreads (s : State) (core asid root : Nat) (user fetch : Bool) (va : Nat) (need : Need) :
    (s.translate core asid root user fetch va need).2.unreads = s.unreads := by
  unfold State.translate
  extract_lets check
  -- The permission check is made any function: its value plays no part, and the kernel then never runs it to compare branches.
  obtain ⟨check', h⟩ : ∃ c, c = check := ⟨check, rfl⟩
  rw [← h]
  split
  · rfl
  split
  · split
    next drop s1 h1 =>
    have hs1 := unreads_of_eq h1 (s.choose_unreads 2)
    split
    · exact hs1
    · split
      next h2 => exact (unreads_of_eq h2 (s1.walk_unreads ..)).trans hs1
      next h2 => exact (unreads_of_eq h2 (s1.walk_unreads ..)).trans hs1
  · split
    next h1 => exact unreads_of_eq h1 (s.walk_unreads ..)
    next t s1 h1 =>
      have hs1 := unreads_of_eq h1 (s.walk_unreads ..)
      split
      · exact hs1
      · exact (s1.setCore_unreads core (fun k => by split <;> rfl)).trans hs1

@[simp] theorem State.translateRange_unreads (s : State) (ea n : Nat) (need : Need) (k : Nat) :
    (s.translateRange ea n need k).2.unreads = s.unreads := by
  induction k generalizing s ea n with
  | zero => rfl
  | succ k ih =>
    unfold State.translateRange
    split
    · rfl
    split
    · rfl
    split
    next h => exact unreads_of_eq h (s.translate_unreads ..)
    next t s1 h =>
      have ht := unreads_of_eq h (s.translate_unreads ..)
      split
      · exact ht
      · dsimp only
        split
        next h' => exact (unreads_of_eq h' (ih ..)).trans ht
        next h' => exact (unreads_of_eq h' (ih ..)).trans ht

@[simp] theorem State.translateAll_unreads (s : State) (ea n : Nat) (need : Need) : (s.translateAll ea n need).2.unreads = s.unreads :=
  s.translateRange_unreads ea n need _

/-! ## Reads at issue -/

@[simp] theorem State.homeFirst_unreads (s : State) (core : Nat) (a : Access) : (s.homeFirst core a).2.unreads = s.unreads := by
  unfold State.homeFirst
  dsimp only
  split
  · rfl
  split
  · rfl
  split
  · rfl
  · split
    · exact State.emptySector_unreads ..
    · exact State.startWriteBack_unreads ..

@[simp] theorem State.beforeRead_unreads (s : State) (a : Access) : (s.beforeRead a).2.unreads = s.unreads := by
  unfold State.beforeRead
  split
  · rfl
  split
  · rfl
  · exact s.homeFirst_unreads _ _

theorem State.readNow_unreads {s t : State} {a : Access} {x : Nat} (h : s.readNow a = some (x, t)) : t.unreads = s.unreads := by
  unfold State.readNow at h
  extract_lets range s1 at h
  have hs1 : s1.unreads = s.unreads := (State.applyNow_unreads ..).trans (s.beforeRead_unreads a)
  split at h
  · exact absurd h (Option.some_ne_none _).symm
  split at h
  next y bad s2 h2 =>
  have hs2 : s2.unreads = s.unreads := (congrArg (fun p => p.2.2.unreads) h2).symm.trans ((s1.loadPart_unreads ..).trans hs1)
  simp only [Option.some.injEq, Prod.mk.injEq] at h
  obtain ⟨-, rfl⟩ := h
  split
  · exact (State.setThread_unreads _ (by rfl)).trans hs2
  · exact hs2

@[simp] theorem State.parkForRead_unreads (s : State) (a : Access) : (s.parkForRead a).unreads = s.unreads := by
  unfold State.parkForRead
  rw [State.park_unreads]
  split
  · exact s.beforeRead_unreads a
  · rfl

@[simp] theorem State.readRun_unreads (s : State) (core : Nat) (l : List (Nat × Nat)) : (s.readRun core l).2.2.unreads = s.unreads := by
  induction l generalizing s with
  | nil => rfl
  | cons p r ih => exact (ih _).trans (s.readHome_unreads core p.1 p.2)

@[simp] theorem State.engineSector_unreads (s : State) (core : Nat) (via : Via) (key : Nat) :
    (s.engineSector core via key).2.unreads = s.unreads := by
  unfold State.engineSector
  split
  · split
    · split
      · simp only [State.fillSector_unreads, State.countEvent_unreads, State.countCorr_unreads]
      · rfl
    · rfl
  · rfl

@[simp] theorem State.engineLine_unreads (s : State) (core stamp : Nat) (via : Via) (key n : Nat) :
    (s.engineLine core stamp via key n).2.2.unreads = s.unreads := by
  unfold State.engineLine
  split
  · exact s.countUnc_unreads core _
  split
  next h => exact (State.readHome_unreads ..).trans (unreads_of_eq h (s.engineSector_unreads core via key))
  next h =>
    simp only [State.readWords_unreads, State.serve_unreads]
    exact unreads_of_eq h (s.engineSector_unreads core via key)

@[simp] theorem State.engineRead_unreads (s : State) (core stamp : Nat) (a : Access) : (s.engineRead core stamp a).2.2.unreads = s.unreads :=
  foldl_keeps (fun acc : Nat × Bool × State => acc.2.2.unreads = s.unreads) _
    (fun acc p h => (acc.2.2.engineLine_unreads core stamp a.via p.1 p.2.1).trans h) _ _ rfl

@[simp] theorem State.engineReads_unreads (s : State) (core stamp : Nat) (l : List Access) :
    (s.engineReads core stamp l).2.2.unreads = s.unreads := by
  induction l generalizing s with
  | nil => rfl
  | cons a r ih => exact (ih _).trans (s.engineRead_unreads core stamp a)

@[simp] theorem State.beforeReads_unreads (s : State) (l : List Access) : (s.beforeReads l).2.unreads = s.unreads :=
  foldl_keeps (fun acc : Bool × State => acc.2.unreads = s.unreads)
    (fun acc a => ((acc.1 && (acc.2.beforeRead a).1 && acc.2.readable a.key a.n && !acc.2.readPasses a), (acc.2.beforeRead a).2))
    (fun acc a h => (acc.2.beforeRead_unreads a).trans h) (l.flatMap Access.lines) (true, s) rfl

@[simp] theorem State.coreList_unreads (s : State) (ea : Word) (n : Nat) : (s.coreList ea n).2.unreads = s.unreads := by
  unfold State.coreList
  split
  · split
    · rfl
    split
    · rfl
    · exact s.readRun_unreads _ _
  split
  next h => exact unreads_of_eq h (s.translateAll_unreads ..)
  next l s1 h =>
    have ht := unreads_of_eq h (s.translateAll_unreads ..)
    split
    next h' => exact (unreads_of_eq h' (s1.beforeReads_unreads l)).trans ht
    next s2 h' =>
      have hb := (unreads_of_eq h' (s1.beforeReads_unreads l)).trans ht
      split
      · exact hb
      · simp only [State.engineReads_unreads, State.applyNow_unreads]
        exact (foldl_unreads (fun s a => s.touchRange_unreads a.key a.n) l s2).trans hb

/-! ## Outcomes that leave UNREAD as it was -/

/-- An instruction that does not trap leaves every UNREAD bit as it was. -/
def LeavesUnread (s : State) (o : Out) : Prop :=
  ∀ t, o = .next t → (∀ cause taddr tinfo, t.last ≠ .trapped cause taddr tinfo) → t.unreads = s.unreads

theorem leavesUnread_next {s t : State} (h : t.unreads = s.unreads) : LeavesUnread s (.next t) := by
  intro u hu _
  cases hu
  exact h

/-- What a trap does to UNREAD is trap entry's (R115), not the instruction's. -/
theorem leavesUnread_trap {s s0 : State} {cause : Nat} {taddr tinfo : Word} : LeavesUnread s (.next (s0.trap cause taddr tinfo)) := by
  intro u hu hlast
  cases hu
  exact absurd rfl (hlast cause taddr tinfo)

/-- The acting thread's UNREAD after an instruction, from what is known of its outcome. -/
theorem unread_of_leavesUnread {i : Instr} {s : State} {o : Out} (ho : LeavesUnread s o) (he : exec i s = o) (t : State)
    (ht : exec i s = .next t) (hlast : ∀ cause taddr tinfo, t.last ≠ .trapped cause taddr tinfo) :
    t.thread.unread = s.thread.unread :=
  unread_of_unreads (ho t (he.symm.trans ht) hlast)

theorem leavesUnread_withOperands {us : List Use} {s : State} {k : State → Out} (hk : LeavesUnread s (k s)) :
    LeavesUnread s (withOperands us s k) := by
  unfold withOperands
  split
  · exact leavesUnread_trap
  split
  · exact leavesUnread_next s.park_unreads
  · exact hk

theorem leavesUnread_withReply {us : List Use} {s : State} {start : State → Out} {finish : Word → State → Out}
    (hs : LeavesUnread s (start s)) (hf : ∀ v, LeavesUnread s (finish v s)) : LeavesUnread s (withReply us s start finish) := by
  unfold withReply
  split
  · exact hf _
  · exact leavesUnread_trap
  · exact leavesUnread_next s.park_unreads
  · exact leavesUnread_withOperands hs

theorem leavesUnread_lexicon {us : List Use} {slot : State → Word × State} {build : State → Word → State → Out}
    {finish : Word → State → State} {s : State} (hb : LeavesUnread s (build s (slot s).1 (slot s).2))
    (hf : ∀ v, (finish v s).unreads = s.unreads) : LeavesUnread s (lexicon us slot build finish s) := by
  have hdone (v : Word) : (finish v s).complete.unreads = s.unreads := (State.complete_unreads _).trans (hf v)
  unfold lexicon
  split
  · exact leavesUnread_next ((State.setThread_unreads _ (by rfl)).trans (hdone _))
  · refine leavesUnread_withReply ?_ (fun v => leavesUnread_next (hdone v))
    generalize slot s = r at hb ⊢
    obtain ⟨v, s1⟩ := r
    dsimp only at hb ⊢
    split
    · exact leavesUnread_trap
    · exact hb

theorem leavesUnread_withCopyDesc {a : Opd} {s : State} {k : State → Word → Nat → State → Out}
    (hk : ∀ ea x t, t.unreads = s.unreads → LeavesUnread s (k s ea x t)) : LeavesUnread s (withCopyDesc a s k) := by
  refine leavesUnread_withOperands ?_
  have hread := s.readS_unreads a
  generalize s.readS a = r at hread ⊢
  obtain ⟨ea, s1⟩ := r
  dsimp only at hread ⊢
  split
  · exact hk _ _ _ hread
  split
  · exact leavesUnread_trap
  split
  · exact leavesUnread_next (s.parkForRead_unreads _)
  next h => exact hk _ _ _ ((State.readNow_unreads h).trans hread)

/-! ## Writes of control registers (R123) -/

/-- No writable field of a control register is UNREAD. -/
@[simp] theorem State.crStore_unreads (s : State) (n : Nat) (x : Word) : (s.crStore n x).unreads = s.unreads := by
  unfold State.crStore
  extract_lets t c p y
  split
  case h_1 | h_2 | h_3 | h_4 | h_5 | h_6 | h_7 | h_14 | h_16 => exact s.setThread_unreads rfl
  case h_8 | h_10 | h_12 => exact s.setMe_unreads rfl
  case h_11 | h_13 | h_17 | h_18 | h_23 | h_24 => exact s.setPartAt_unreads ..
  case h_15 => exact s.setArray_unreads ..
  case h_19 | h_20 | h_21 | h_22 => exact s.setDie_unreads ..
  case h_9 =>
    split
    · rfl
    · exact s.setMe_unreads rfl
  case h_25 =>
    split
    · exact s.setMe_unreads rfl
    · rfl

@[simp] theorem State.writeHalt_unreads (s : State) (n : Nat) (reached : Bool) (x : Word) : (s.writeHalt n reached x).unreads = s.unreads := by
  unfold State.writeHalt
  split
  · split
    · rfl
    · split <;> rfl
  · rfl

@[simp] theorem State.clearTag_unreads (s : State) (tag : Nat) : (s.clearTag tag).unreads = s.unreads := s.setMe_unreads rfl

@[simp] theorem State.askLex_unreads (s : State) (v : Nat) (cmd : LexCmd) : (s.askLex v cmd).unreads = s.unreads :=
  State.parkWith_unreads ..

@[simp] theorem State.parkForList_unreads (s : State) (ea : Word) (n : Nat) : (s.parkForList ea n).unreads = s.unreads :=
  (State.park_unreads _).trans (s.coreList_unreads ea n)

theorem leavesUnread_writeBits (a : Opd) (n reach : Nat) (new : Nat → Nat → Nat) (s : State) :
    LeavesUnread s (writeBits a n reach new s) := by
  unfold writeBits
  extract_lets f
  split
  next s1 h1 =>
  extract_lets old m y
  refine leavesUnread_next ?_
  rw [State.complete_unreads, State.writeHalt_unreads, State.crStore_unreads, unreads_of_eq h1 (s.readS_unreads a)]

theorem leavesUnread_maskControl (a : Opd) (n : Nat) (new : Nat → Nat → Nat) (s : State) : LeavesUnread s (maskControl a n new s) := by
  unfold maskControl
  split
  · exact leavesUnread_trap
  refine leavesUnread_withOperands ?_
  split
  next x s1 h1 =>
  have hs1 := unreads_of_eq h1 (s.readS_unreads a)
  extract_lets f f' m old y
  split
  · exact leavesUnread_trap
  split
  · exact leavesUnread_next (s1.complete_unreads.trans hs1)
  · refine leavesUnread_next ?_
    rw [State.complete_unreads, State.writeHalt_unreads, State.crStore_unreads, hs1]

theorem leavesUnread_lexrel (a : Opd) (s : State) : LeavesUnread s (lexrel a s) :=
  leavesUnread_lexicon (leavesUnread_next ((State.askLex_unreads ..).trans (s.readS_unreads a))) (fun _ => rfl)

theorem leavesUnread_writeMigd (a : Opd) (s : State) : LeavesUnread s (writeMigd a s) := by
  refine leavesUnread_withCopyDesc (fun ea x s1 h1 => ?_)
  split
  · exact leavesUnread_trap
  split
  · exact leavesUnread_next ((State.parkWith_unreads ..).trans (State.readFrom_unreads h1))
  · refine leavesUnread_next ?_
    rw [State.complete_unreads, State.send_unreads, State.clearTag_unreads, h1]

theorem leavesUnread_writePsave (a : Opd) (s : State) : LeavesUnread s (writePsave a s) := by
  refine leavesUnread_withCopyDesc (fun ea x s1 h1 => ?_)
  extract_lets n op tag bad needsArea needsDest at_
  have hbad : LeavesUnread s bad := leavesUnread_trap
  split
  · exact hbad
  split
  · exact leavesUnread_next ((State.parkWith_unreads ..).trans (State.readFrom_unreads h1))
  split
  · exact hbad
  · exact leavesUnread_next (s.parkForList_unreads at_ n)
  next list s2 h2 =>
  have hs2 := (unreads_of_eq h2 (s1.coreList_unreads at_ n)).trans h1
  split
  · exact hbad
  · exact leavesUnread_next (s.parkForList_unreads _ _)
  next dests s3 h3 =>
  have hs3 : s3.unreads = s.unreads := by
    refine (unreads_of_eq h3 ?_).trans hs2
    split
    · exact s2.coreList_unreads _ _
    · rfl
  split
  · exact hbad
  next area s4 h4 =>
  have hs4 : s4.unreads = s.unreads := by
    refine (unreads_of_eq h4 ?_).trans hs3
    split
    · exact s3.translateAll_unreads ..
    · rfl
  refine leavesUnread_next ?_
  rw [State.complete_unreads, State.send_unreads, State.clearTag_unreads, hs4]

theorem leavesUnread_execCrWr (a : Opd) (n : BitVec 12) (s : State) : LeavesUnread s (execCrWr a n s) := by
  unfold execCrWr
  split
  · exact leavesUnread_trap
  split
  · exact leavesUnread_lexrel a s
  split
  · exact leavesUnread_trap
  split
  · exact leavesUnread_writeMigd a s
  split
  · exact leavesUnread_writePsave a s
  · exact leavesUnread_withOperands (leavesUnread_writeBits a n.toNat allBits _ s)

/-! ## Reads of control registers (R116) -/

/-- A read of any register but cr.cause. -/
theorem leavesUnread_readControl (a : Opd) {n : Nat} (hn : n ≠ 0x000) (s : State) : LeavesUnread s (readControl a n s) := by
  unfold readControl
  split
  · exact leavesUnread_trap
  refine leavesUnread_withOperands ?_
  split
  · exact leavesUnread_next s.park_unreads
  · exact leavesUnread_next ((State.complete_unreads _).trans (State.resultS_long_unreads ..))

/-- The state in which a read of cr.cause has cleared UNREAD. -/
def State.causeTaken (s : State) : State := s.setThread { s.thread with unread := false }

theorem State.causeTaken_unread {s : State} (hp : s.placed) : s.causeTaken.thread.unread = false := by
  rw [State.causeTaken, State.thread_setThread _ _ hp]

/-- A result that a thread sends back carries its address, and nothing else of the thread. -/
theorem State.returning_causeTaken {s : State} (hp : s.placed) (d : Dst) (x : VWord) :
    s.causeTaken.returning d x = s.returning d x := by
  have hpc : s.causeTaken.pc = s.pc := by
    simp only [State.pc, State.src, State.causeTaken, State.setThread_snap, State.thread_setThread _ _ hp]
    cases s.snap <;> rfl
  simp only [State.returning, State.item, hpc]
  rfl

/-- A read of cr.cause whose destination is ready. -/
theorem readControl_cause {a : Opd} {s : State} (hq : s.me.queuesReady [⟨.scalar, .dst, a⟩] = true) :
    readControl a 0x000 s = .next (s.causeTaken.resultS a (s.src.cause.setWidth 64) true).complete := by
  have hm : s.me.beyondMode [⟨.scalar, .dst, a⟩] = false := beyondMode_scalar _ rfl
  have ho (k : State → Out) : withOperands [⟨.scalar, .dst, a⟩] s k = k s := by simp [withOperands, hm, hq]
  unfold readControl
  rw [ho]
  rfl

theorem readControl_cause_clears {a : Opd} {s : State} (hp : s.placed) (hq : s.me.queuesReady [⟨.scalar, .dst, a⟩] = true) :
    ∃ t, readControl a 0x000 s = .next t ∧ t.last = .completed ∧ t.thread.unread = false ∧
      (a.isQueue = false → t.work = s.work ++ numbered s.nextId [s.returning (dstOf a) (s.src.cause.setWidth 512)]) := by
  refine ⟨_, readControl_cause hq, rfl, ?_, fun ha => ?_⟩
  · rw [unread_of_unreads ((State.complete_unreads _).trans (State.resultS_long_unreads ..)), State.causeTaken_unread hp]
  · have hx : (s.src.cause.setWidth 64).setWidth 512 = s.src.cause.setWidth 512 := BitVec.setWidth_setWidth (by decide)
    rw [resultS_register_long _ ha, hx, State.returning_causeTaken hp]
    rfl

/-! ## O43 -/

/-- Settles O43: a read of cr.cause completes from the state in which UNREAD is clear; every other read, and every write, that does not
trap is one of the updates above, none of which touches UNREAD. -/
theorem causeReads : Obligations.CauseReads := by
  intro s a n hp
  refine ⟨?read, ?readStep, fun hn => ?others, ?write, ?set, ?clear, ?release⟩
  case read => exact readControl_cause_clears hp
  case readStep => exact readControl_cause_clears hp
  case others =>
    have hn' : n.toNat ≠ 0x000 := fun h => hn (BitVec.eq_of_toNat_eq h)
    exact unread_of_leavesUnread (leavesUnread_readControl a hn' s) (exec_crRd a n s)
  case write => exact unread_of_leavesUnread (leavesUnread_execCrWr a n s) (exec_crWr a n s)
  case set => exact unread_of_leavesUnread (leavesUnread_maskControl a n.toNat _ s) (exec_crSet a n s)
  case clear => exact unread_of_leavesUnread (leavesUnread_maskControl a n.toNat _ s) (exec_crClr a n s)
  case release => exact unread_of_leavesUnread (leavesUnread_lexrel a s) (exec_lexrelWrite a s)

end Sys2Proof.Machine
end
